-- ==== Sys2Proof/Word.lean ====
section
/-! DEFINITION. The word types of HUFFCORE (00_scope.md R12): a character, a count, an index, a position and every
length register are 32 bits, a weight and a code value 64 bits, a stream byte 8 bits. -/

namespace Sys2Proof

/-- A stream byte, and one byte of the model's memory. -/
abbrev Byte := BitVec 8

/-- A bus word: a register, a character, a count, a node index (R12). -/
abbrev Word := BitVec 32

/-- A node weight or a code value (R12, R70). -/
abbrev DWord := BitVec 64

/-- `NIL = 0xFFFF_FFFF`, "no node" (R12). -/
def NIL : Word := 0xFFFFFFFF

end Sys2Proof
end

