-- ==== Sys2Proof/Syntax.lean ====
section
/-! DEFINITION. The command words as syntax: one constructor per row of spec/opcode_table.json (30_encoding.md R142 to
R144). No command has an operand field (R141). -/

namespace Sys2Proof

/-- A command of HUFFCORE. The eight legal commands (R142) carry nothing. A reserved opcode carries its OP (R143).
An illegal word with a reserved bit set carries the whole word (R144), filed under the row of the LOWEST bit of
[31:4] that is set (the rows overlap; log 9). -/
inductive Instr where
  | nop
  | clear
  | count
  | build
  | gencodes
  | serialize
  | encode
  | decode
  | reservedOp (op : BitVec 4)
  | rsvdBit4 (w : Word)
  | rsvdBit5 (w : Word)
  | rsvdBit6 (w : Word)
  | rsvdBit7 (w : Word)
  | rsvdBit8 (w : Word)
  | rsvdBit9 (w : Word)
  | rsvdBit10 (w : Word)
  | rsvdBit11 (w : Word)
  | rsvdBit12 (w : Word)
  | rsvdBit13 (w : Word)
  | rsvdBit14 (w : Word)
  | rsvdBit15 (w : Word)
  | rsvdBit16 (w : Word)
  | rsvdBit17 (w : Word)
  | rsvdBit18 (w : Word)
  | rsvdBit19 (w : Word)
  | rsvdBit20 (w : Word)
  | rsvdBit21 (w : Word)
  | rsvdBit22 (w : Word)
  | rsvdBit23 (w : Word)
  | rsvdBit24 (w : Word)
  | rsvdBit25 (w : Word)
  | rsvdBit26 (w : Word)
  | rsvdBit27 (w : Word)
  | rsvdBit28 (w : Word)
  | rsvdBit29 (w : Word)
  | rsvdBit30 (w : Word)
  | rsvdBit31 (w : Word)
deriving DecidableEq, Repr

end Sys2Proof
end

