-- ==== Sys2Proof/WellFormed.lean ====
section
/-! DEFINITION. Which instruction terms stand for a command word: the checks that make each illegal word ONE term. -/

namespace Sys2Proof

/-- Bit `n` is the lowest set bit of `w` in [31:4]. -/
def lowestRsvd (n : Nat) (w : Word) : Bool :=
  w.getLsbD n && (List.range (n - 4)).all (fun j => !w.getLsbD (4 + j))

/-- A reserved opcode is 0x8 to 0xF (30_encoding.md R143); a word of a reserved-bit row has that bit set (R144) and no
lower bit of [31:4] (log 9). -/
def Instr.wellFormed : Instr → Bool
  | .nop => true
  | .clear => true
  | .count => true
  | .build => true
  | .gencodes => true
  | .serialize => true
  | .encode => true
  | .decode => true
  | .reservedOp op => 8 ≤ op.toNat
  | .rsvdBit4 w => lowestRsvd 4 w
  | .rsvdBit5 w => lowestRsvd 5 w
  | .rsvdBit6 w => lowestRsvd 6 w
  | .rsvdBit7 w => lowestRsvd 7 w
  | .rsvdBit8 w => lowestRsvd 8 w
  | .rsvdBit9 w => lowestRsvd 9 w
  | .rsvdBit10 w => lowestRsvd 10 w
  | .rsvdBit11 w => lowestRsvd 11 w
  | .rsvdBit12 w => lowestRsvd 12 w
  | .rsvdBit13 w => lowestRsvd 13 w
  | .rsvdBit14 w => lowestRsvd 14 w
  | .rsvdBit15 w => lowestRsvd 15 w
  | .rsvdBit16 w => lowestRsvd 16 w
  | .rsvdBit17 w => lowestRsvd 17 w
  | .rsvdBit18 w => lowestRsvd 18 w
  | .rsvdBit19 w => lowestRsvd 19 w
  | .rsvdBit20 w => lowestRsvd 20 w
  | .rsvdBit21 w => lowestRsvd 21 w
  | .rsvdBit22 w => lowestRsvd 22 w
  | .rsvdBit23 w => lowestRsvd 23 w
  | .rsvdBit24 w => lowestRsvd 24 w
  | .rsvdBit25 w => lowestRsvd 25 w
  | .rsvdBit26 w => lowestRsvd 26 w
  | .rsvdBit27 w => lowestRsvd 27 w
  | .rsvdBit28 w => lowestRsvd 28 w
  | .rsvdBit29 w => lowestRsvd 29 w
  | .rsvdBit30 w => lowestRsvd 30 w
  | .rsvdBit31 w => lowestRsvd 31 w

end Sys2Proof
end

