-- ==== Sys2Proof/Decode.lean ====
section
/-! DEFINITION. The decoder of command words, total (30_encoding.md R144: "a decoder of command words is total"), the
encoder, and the table's reading of both. -/

namespace Sys2Proof

/-- The opcode map by OP, for a word whose bits [31:4] are 0 (R142, R143). -/
def decodeOp (op : BitVec 4) : Instr :=
  match op.toNat with
  | 0 => .nop
  | 1 => .clear
  | 2 => .count
  | 3 => .build
  | 4 => .gencodes
  | 5 => .serialize
  | 6 => .encode
  | 7 => .decode
  | _ => .reservedOp op

/-- `decode(w)` of R144: a word with a bit of [31:4] set is illegal whatever its OP, and goes to the row of the lowest
such bit (log 9); else OP selects. -/
def decode (w : Word) : Instr :=
  if w.getLsbD 4 then .rsvdBit4 w
  else if w.getLsbD 5 then .rsvdBit5 w
  else if w.getLsbD 6 then .rsvdBit6 w
  else if w.getLsbD 7 then .rsvdBit7 w
  else if w.getLsbD 8 then .rsvdBit8 w
  else if w.getLsbD 9 then .rsvdBit9 w
  else if w.getLsbD 10 then .rsvdBit10 w
  else if w.getLsbD 11 then .rsvdBit11 w
  else if w.getLsbD 12 then .rsvdBit12 w
  else if w.getLsbD 13 then .rsvdBit13 w
  else if w.getLsbD 14 then .rsvdBit14 w
  else if w.getLsbD 15 then .rsvdBit15 w
  else if w.getLsbD 16 then .rsvdBit16 w
  else if w.getLsbD 17 then .rsvdBit17 w
  else if w.getLsbD 18 then .rsvdBit18 w
  else if w.getLsbD 19 then .rsvdBit19 w
  else if w.getLsbD 20 then .rsvdBit20 w
  else if w.getLsbD 21 then .rsvdBit21 w
  else if w.getLsbD 22 then .rsvdBit22 w
  else if w.getLsbD 23 then .rsvdBit23 w
  else if w.getLsbD 24 then .rsvdBit24 w
  else if w.getLsbD 25 then .rsvdBit25 w
  else if w.getLsbD 26 then .rsvdBit26 w
  else if w.getLsbD 27 then .rsvdBit27 w
  else if w.getLsbD 28 then .rsvdBit28 w
  else if w.getLsbD 29 then .rsvdBit29 w
  else if w.getLsbD 30 then .rsvdBit30 w
  else if w.getLsbD 31 then .rsvdBit31 w
  else decodeOp (w.extractLsb' 0 4)

/-- Why a bit string is no command word. -/
inductive DecodeError where
  /-- The bits do not fit one 32-bit word: a command has one length (R140). -/
  | notOneWord
deriving DecidableEq, Repr

/-- Decoding `nbits` bits with value `w` (bits above them 0): the bits are the 32-bit word, or are no command. -/
def decodeBits (nbits w : Nat) : Except DecodeError Instr :=
  if nbits ≤ 32 ∧ w < 2 ^ 32 then .ok (decode (BitVec.ofNat 32 w)) else .error .notOneWord

/-- The host's reading of the opcode table. -/
def decodeTableWord (nbits w : Nat) : Option Instr :=
  match decodeBits nbits w with
  | .ok i => some i
  | .error _ => none

/-- The 32-bit word of an instruction (R140, R142 to R144). -/
def encode : Instr → Word
  | .nop => 0x00000000
  | .clear => 0x00000001
  | .count => 0x00000002
  | .build => 0x00000003
  | .gencodes => 0x00000004
  | .serialize => 0x00000005
  | .encode => 0x00000006
  | .decode => 0x00000007
  | .reservedOp op => op.setWidth 32
  | .rsvdBit4 w => w
  | .rsvdBit5 w => w
  | .rsvdBit6 w => w
  | .rsvdBit7 w => w
  | .rsvdBit8 w => w
  | .rsvdBit9 w => w
  | .rsvdBit10 w => w
  | .rsvdBit11 w => w
  | .rsvdBit12 w => w
  | .rsvdBit13 w => w
  | .rsvdBit14 w => w
  | .rsvdBit15 w => w
  | .rsvdBit16 w => w
  | .rsvdBit17 w => w
  | .rsvdBit18 w => w
  | .rsvdBit19 w => w
  | .rsvdBit20 w => w
  | .rsvdBit21 w => w
  | .rsvdBit22 w => w
  | .rsvdBit23 w => w
  | .rsvdBit24 w => w
  | .rsvdBit25 w => w
  | .rsvdBit26 w => w
  | .rsvdBit27 w => w
  | .rsvdBit28 w => w
  | .rsvdBit29 w => w
  | .rsvdBit30 w => w
  | .rsvdBit31 w => w

/-- The instruction is one of the 29 rows that complete with ILLEGAL_COMMAND (R143, R144, R405). -/
def Instr.illegal : Instr → Bool
  | .nop => false
  | .clear => false
  | .count => false
  | .build => false
  | .gencodes => false
  | .serialize => false
  | .encode => false
  | .decode => false
  | .reservedOp _ => true
  | .rsvdBit4 _ => true
  | .rsvdBit5 _ => true
  | .rsvdBit6 _ => true
  | .rsvdBit7 _ => true
  | .rsvdBit8 _ => true
  | .rsvdBit9 _ => true
  | .rsvdBit10 _ => true
  | .rsvdBit11 _ => true
  | .rsvdBit12 _ => true
  | .rsvdBit13 _ => true
  | .rsvdBit14 _ => true
  | .rsvdBit15 _ => true
  | .rsvdBit16 _ => true
  | .rsvdBit17 _ => true
  | .rsvdBit18 _ => true
  | .rsvdBit19 _ => true
  | .rsvdBit20 _ => true
  | .rsvdBit21 _ => true
  | .rsvdBit22 _ => true
  | .rsvdBit23 _ => true
  | .rsvdBit24 _ => true
  | .rsvdBit25 _ => true
  | .rsvdBit26 _ => true
  | .rsvdBit27 _ => true
  | .rsvdBit28 _ => true
  | .rsvdBit29 _ => true
  | .rsvdBit30 _ => true
  | .rsvdBit31 _ => true

end Sys2Proof
end

