-- ==== Sys2Proof/Config.lean ====
section
/-! DEFINITION. What an instance of HUFFCORE fixes (00_scope.md R8 to R11, 20_memory.md R109), the two configurations
the spec names, and the free values: opaque constants without a body, of which nothing can be proved. -/

namespace Sys2Proof

/-- The parameters of an instance. They never change; CFG_NSYM, CFG_INCAP, CFG_OUTCAP and CFG_LMAX read the first
four (R34), HUFF_BASE is added to every address (R109). Log 1, log 7. -/
structure Config where
  /-- `N_SYM` (R8). -/
  nSym : Nat
  /-- `IN_CAP` (R10). -/
  inCap : Nat
  /-- `OUT_CAP` (R10). -/
  outCap : Nat
  /-- `L_MAX` (R11). -/
  lMax : Nat
  /-- `HUFF_BASE` (R109). -/
  base : Word
deriving DecidableEq, Repr

/-- `NODE_CAP = 2*N_SYM - 1` (R9). -/
def Config.nodeCap (c : Config) : Nat := 2 * c.nSym - 1

/-- The constraints on the parameters (R8, R10, R11). The base is a multiple of 4, since the bus carries word
addresses (R103): DESIGN CHOICE, log 7. -/
abbrev Config.wf (c : Config) : Prop :=
  (1 ≤ c.nSym ∧ c.nSym ≤ 2 ^ 18) ∧ (1 ≤ c.inCap ∧ c.inCap ≤ 2 ^ 22) ∧
  (1 ≤ c.outCap ∧ c.outCap ≤ 2 ^ 22) ∧ (1 ≤ c.lMax ∧ c.lMax ≤ 64) ∧ c.base.toNat % 4 = 0

/-- The configuration REF of 00_scope.md section 4. -/
def Config.ref : Config := { nSym := 256, inCap := 4096, outCap := 16384, lMax := 64, base := 0 }

/-- The configuration SMALL of 00_scope.md section 4. -/
def Config.small : Config := { nSym := 4, inCap := 16, outCap := 8, lMax := 2, base := 0 }

/-- FREE VALUE: the byte at offset `a` of a window whose contents the spec calls unspecified (93 I1, I2, I3), for the
`k`-th draw. Log 2. -/
opaque Config.freeByte : Nat → Nat → BitVec 8

/-- FREE VALUE: how many host transactions precede the completion of an accepted command (R206, 93 I8), for the
`k`-th draw. Log 3. -/
opaque Config.freeTurns : Nat → Nat

end Sys2Proof
end

