-- ==== Sys2Proof/Machine/State.lean ====
section
/-! DEFINITION. The state of HUFFCORE at transaction level (10_state.md), plain data, and the state after reset
(10_state.md R90, 70_reset_and_hazards.md R450). INVENTORY.md, "State", names the rule of every field. -/

namespace Sys2Proof.Machine

/-- What a byte of a window that is not listed holds: 0, or an unspecified value, named by its draw. -/
inductive Fill where
  | zero
  | unspecified (draw : Nat)
deriving DecidableEq, Repr

/-- The contents of one window, by byte offset: the listed cells, and what every other byte holds. The canonical form
is `Memory.wf` (Machine/Ops.lean). A word's bytes lie least significant first: DESIGN CHOICE, not observable (R102),
log 5. -/
structure Memory where
  fill : Fill
  cells : List Host.Cell
deriving DecidableEq, Repr

/-- A step of the host agent (00_scope.md R15), or the step `Reset` (R450). -/
inductive HostEvent where
  | read (addr : Word)
  | write (addr : Word) (data : Word)
  | reset
deriving DecidableEq, Repr

structure State where
  /-- The instance's parameters, readable in CFG_* (R34); constant. -/
  cfg : Config
  /-- CTRL bit 0 (R35). -/
  irqEn : Bool
  /-- LAST_CMD, read at CMD (R36): the word the engine runs while BUSY = 1. -/
  lastCmd : Word
  /-- STATUS bits 0 to 5 (R37). BUSY is the engine's phase (R83). -/
  busy : Bool
  done : Bool
  err : Bool
  haz : Bool
  treeValid : Bool
  codesValid : Bool
  /-- ERR_CODE bits [7:0] (R40) and the context values (R41). -/
  errCode : BitVec 8
  errArg0 : Word
  errArg1 : Word
  errArg2 : Word
  /-- The length, root and stream registers (R42 to R48). -/
  inLen : Word
  outLen : Word
  freqN : Word
  nodeN : Word
  root : Word
  codeN : Word
  treeBits : Word
  payloadBits : Word
  stopPos : Word
  /-- The five windows (R50, R51, R60, R64, R70). -/
  ibuf : Memory
  obuf : Memory
  freq : Memory
  node : Memory
  code : Memory
  /-- The response port: `rsp_rdata` of the last transaction, none after reset (R14, R450). -/
  rsp : Option Word
  /-- MODEL: the host events still to come, oldest first (log 6). -/
  pending : List HostEvent
  /-- MODEL: how many host events still precede the completion of the running command (log 3). -/
  busyTurns : Nat
  /-- MODEL: how many free values have been drawn (log 2). -/
  draws : Nat
deriving DecidableEq, Repr

/-- Why the machine stops. -/
inductive Fault where
  /-- GENCODES or SERIALIZE with TREE_VALID = 1 over a node memory that is no finite tree from ROOT. 10_state.md R49
  excludes such a state and the pseudocode of R290 and R312 would not end in it. SAFE: log 10. -/
  | nodeMemoryNotATree
deriving DecidableEq, Repr

/-- Why a step has no meaning. -/
inductive Refusal where
  /-- An instruction whose meaning is not written yet; raised by `exec` alone. SAFE. -/
  | notModelled (mnemonic : String)
  /-- A host transaction at a byte address that is not a multiple of 4: 20_memory.md R103, "a form the bus cannot
  carry". Raised by the host events read and write. SAFE: log 8. -/
  | misalignedAddress (addr : Word)
deriving DecidableEq, Repr

/-- The state after a reset (R90, R450) of an instance with parameters `c`, the host events `q` still to come and `k`
free values drawn before: registers at their reset values, every window word unspecified. -/
def State.resetAt (c : Config) (q : List HostEvent) (k : Nat) : State where
  cfg := c
  irqEn := false
  lastCmd := 0
  busy := false
  done := false
  err := false
  haz := false
  treeValid := false
  codesValid := false
  errCode := 0
  errArg0 := 0
  errArg1 := 0
  errArg2 := 0
  inLen := 0
  outLen := 0
  freqN := 0
  nodeN := 0
  root := NIL
  codeN := 0
  treeBits := 0
  payloadBits := 0
  stopPos := 0
  ibuf := ⟨.unspecified k, []⟩
  obuf := ⟨.unspecified (k + 1), []⟩
  freq := ⟨.unspecified (k + 2), []⟩
  node := ⟨.unspecified (k + 3), []⟩
  code := ⟨.unspecified (k + 4), []⟩
  rsp := none
  pending := q
  busyTurns := 0
  draws := k + 5

/-- The machine right after reset, in the configuration REF (log 1), with no host event to come (log 6). -/
def State.reset : State := State.resetAt Config.ref [] 0

end Sys2Proof.Machine
end

