-- ==== Sys2Proof/Machine/Data.lean ====
section
/-! DEFINITION. The data the commands compute with: table entries (10_state.md R60, R64, R70), the tree, the errors
(60_exceptions.md R400 to R412), the hidden state that lives during one command (R80 to R82, log 4), the address map's
names (R33), and how a command's body ends. -/

namespace Sys2Proof.Machine

/-- An entry of FREQ (R60). -/
structure FreqEntry where
  sym : Word
  count : Word
deriving DecidableEq, Repr

/-- An entry of NODE (R64): EMPTY, a Leaf, or an Internal node with the indices of its children. -/
inductive Node where
  | empty
  | leaf (sym : Word) (weight : DWord)
  | internal (left : Word) (right : Word) (weight : DWord)
deriving DecidableEq, Repr

/-- An entry of CODE (R70). -/
structure CodeEntry where
  sym : Word
  len : Word
  val : DWord
deriving DecidableEq, Repr

/-- The tree that the node memory holds from an index on: "a binary tree node, polymorphic over two variants" (R64),
every Internal node with two children (R66). -/
inductive Tree where
  | leaf (sym : Word)
  | node (left : Tree) (right : Tree)
deriving DecidableEq, Repr

/-- The errors a command raises, with their context (R401 to R412). -/
inductive CmdError where
  | emptyInput
  | truncatedStream (start : Nat) (needed : Nat) (available : Nat)
  | invalidCodePoint (place : Nat) (value : Word)
  | malformedTrailer (stop : Nat) (treeEnd : Nat) (available : Nat)
  | illegalCommand (word : Word)
  | notReady (mask : Word)
  | capacity (resource : Nat) (needed : Nat) (available : Nat)
  | codeTooLong (sym : Word) (depth : Nat) (lMax : Nat)
  | freqTableInvalid (i : Nat) (sym : Word) (prev : Word)
  | symbolNotInTable (i : Nat) (sym : Word)
  | malformedPayload (pos : Nat)
  | duplicateSymbol (sym : Word)
deriving DecidableEq, Repr

/-- An entry of the Tree Builder's priority queue (R80). -/
structure PQEntry where
  weight : DWord
  index : Nat
deriving DecidableEq, Repr

/-- The encoder's bit cursor (R81, R311): ACC, BITPOS, the bits emitted, and the bytes flushed so far, whose number is
`k`, the index of the next OBUF element. -/
structure EncCursor where
  acc : Byte
  bitpos : Nat
  nbits : Nat
  out : List Byte
deriving DecidableEq, Repr

/-- The decoder's cursor during Phase 1 (R82, R352): the next stream bit and the nodes allocated so far, whose number
is `cnt`. -/
structure DecCursor where
  pos : Nat
  nodes : List Node
deriving DecidableEq, Repr

/-- The five windows (R33). -/
inductive Win where
  | ibuf
  | obuf
  | freq
  | node
  | code
deriving DecidableEq, Repr

/-- The registers of the map (R33). -/
inductive Reg where
  | id
  | version
  | cfgNsym
  | cfgIncap
  | cfgOutcap
  | cfgLmax
  | ctrl
  | cmd
  | status
  | errCode
  | errArg0
  | errArg1
  | errArg2
  | inLen
  | outLen
  | freqN
  | nodeN
  | root
  | codeN
  | treeBits
  | payloadBits
  | stopPos
deriving DecidableEq, Repr

/-- What an offset from HUFF_BASE names (R33, R106). -/
inductive Loc where
  | reg (r : Reg)
  | window (w : Win) (offset : Nat)
  | unmapped
deriving DecidableEq, Repr

/-- How the body of a command ends: with its effects, with an error and the effects that stand (R416), or, over a node
memory that is no tree, not at all (log 10). -/
inductive Stage where
  | ok (s : State)
  | raised (e : CmdError) (s : State)
  | stuck (f : Fault)
deriving DecidableEq, Repr

end Sys2Proof.Machine
end

