-- ==== Sys2Proof/Machine/Ops.lean ====
section
/-! DEFINITION. The named operations over memory and registers, and the shared operations of the command lifecycle:
acceptance (40_command_lifecycle.md R200), completion (R205), error completion (60_exceptions.md R415, what this
hardware has for taking an exception) and reset (70_reset_and_hazards.md R450). There is no return operation: R419. -/

namespace Sys2Proof.Machine

/-! ### One window's contents -/

/-- What an unlisted byte holds, where the spec gives it. -/
def Fill.byte? : Fill → Option Byte
  | .zero => some 0
  | .unspecified _ => none

/-- What an unlisted byte READS as: the one definition of it. An unspecified byte is a free value (93 I1, I3; log 2). -/
def Fill.read : Fill → Nat → Byte
  | .zero, _ => 0
  | .unspecified k, a => Config.freeByte k a

def lookupCell : List Host.Cell → Nat → Option Byte
  | [], _ => none
  | (k, b) :: cs, a => if k = a then some b else lookupCell cs a

def insertCell (a : Nat) (b : Byte) : List Host.Cell → List Host.Cell
  | [] => [(a, b)]
  | (k, v) :: cs =>
    if a < k then (a, b) :: (k, v) :: cs
    else if a = k then (a, b) :: cs
    else (k, v) :: insertCell a b cs

def eraseCell (a : Nat) : List Host.Cell → List Host.Cell
  | [] => []
  | (k, v) :: cs => if k = a then eraseCell a cs else (k, v) :: eraseCell a cs

/-- The canonical form: addresses strictly rising, and no cell that repeats what an unlisted byte holds. -/
abbrev Memory.wf (m : Memory) : Prop :=
  (m.cells.map Prod.fst).Pairwise (· < ·) ∧ ∀ c ∈ m.cells, m.fill.byte? ≠ some c.2

def Memory.readByte (m : Memory) (a : Nat) : Byte :=
  match lookupCell m.cells a with
  | some b => b
  | none => m.fill.read a

def Memory.writeByte (m : Memory) (a : Nat) (b : Byte) : Memory :=
  if m.fill.byte? = some b then { m with cells := eraseCell a m.cells }
  else { m with cells := insertCell a b m.cells }

/-- The word at byte offset `a` (R102): its four bytes, least significant first (log 5). -/
def Memory.readWord (m : Memory) (a : Nat) : Word :=
  m.readByte (a + 3) ++ m.readByte (a + 2) ++ m.readByte (a + 1) ++ m.readByte a

/-- A whole-word write (R104). -/
def Memory.writeWord (m : Memory) (a : Nat) (w : Word) : Memory :=
  (((m.writeByte a (w.extractLsb' 0 8)).writeByte (a + 1) (w.extractLsb' 8 8)).writeByte (a + 2)
    (w.extractLsb' 16 8)).writeByte (a + 3) (w.extractLsb' 24 8)

/-- The words `ws` written to consecutive elements from byte offset `a` on. -/
def Memory.writeWords (m : Memory) (a : Nat) : List Word → Memory
  | [] => m
  | w :: ws => (m.writeWord a w).writeWords (a + 4) ws

/-- A window all of whose words are written: `ws` from offset 0 on, and 0 behind them (D34). -/
def Memory.ofWords (ws : List Word) : Memory := Memory.writeWords ⟨.zero, []⟩ 0 ws

/-! ### The windows of a state -/

def State.win (s : State) : Win → Memory
  | .ibuf => s.ibuf
  | .obuf => s.obuf
  | .freq => s.freq
  | .node => s.node
  | .code => s.code

def State.setWin (s : State) (w : Win) (m : Memory) : State :=
  match w with
  | .ibuf => { s with ibuf := m }
  | .obuf => { s with obuf := m }
  | .freq => { s with freq := m }
  | .node => { s with node := m }
  | .code => { s with code := m }

/-- Every word of the window holds an unspecified value from now on (R416, R450): one fresh draw (log 2). -/
def scramble (w : Win) (s : State) : State :=
  { s.setWin w ⟨.unspecified s.draws, []⟩ with draws := s.draws + 1 }

/-! ### Errors -/

/-- The error codes (R400). -/
def CmdError.code : CmdError → BitVec 8
  | .emptyInput => 1
  | .truncatedStream _ _ _ => 2
  | .invalidCodePoint _ _ => 3
  | .malformedTrailer _ _ _ => 4
  | .illegalCommand _ => 5
  | .notReady _ => 6
  | .capacity _ _ _ => 7
  | .codeTooLong _ _ _ => 8
  | .freqTableInvalid _ _ _ => 9
  | .symbolNotInTable _ _ => 10
  | .malformedPayload _ => 11
  | .duplicateSymbol _ => 12

/-- The context values ERR_ARG0, ERR_ARG1, ERR_ARG2 (R401 to R412); an unused one is 0. -/
def CmdError.args : CmdError → Word × Word × Word
  | .emptyInput => (0, 0, 0)
  | .truncatedStream p n a => (BitVec.ofNat 32 p, BitVec.ofNat 32 n, BitVec.ofNat 32 a)
  | .invalidCodePoint p v => (BitVec.ofNat 32 p, v, 0)
  | .malformedTrailer s t a => (BitVec.ofNat 32 s, BitVec.ofNat 32 t, BitVec.ofNat 32 a)
  | .illegalCommand w => (w, 0, 0)
  | .notReady m => (m, 0, 0)
  | .capacity r n c => (BitVec.ofNat 32 r, BitVec.ofNat 32 n, BitVec.ofNat 32 c)
  | .codeTooLong c d l => (c, BitVec.ofNat 32 d, BitVec.ofNat 32 l)
  | .freqTableInvalid i c p => (BitVec.ofNat 32 i, c, p)
  | .symbolNotInTable i c => (BitVec.ofNat 32 i, c, 0)
  | .malformedPayload p => (BitVec.ofNat 32 p, 1, 0)
  | .duplicateSymbol c => (c, 0, 0)

/-! ### The command lifecycle -/

/-- What acceptance of the word `w` writes (R200). -/
def acceptRegs (w : Word) (s : State) : State :=
  { s with
    lastCmd := w, busy := true, done := false, err := false,
    errCode := 0, errArg0 := 0, errArg1 := 0, errArg2 := 0 }

/-- Acceptance (R200), and the free choice of how many host events precede the completion (R206; log 3). -/
def accept (w : Word) (s : State) : State :=
  { acceptRegs w s with busyTurns := Config.freeTurns s.draws, draws := s.draws + 1 }

/-- Completion (R205). -/
def complete (s : State) : State := { s with busy := false, done := true }

/-- Error completion (R415); the error effects of R416 are the command's own and are applied before it. -/
def errorComplete (e : CmdError) (s : State) : State :=
  { complete s with
    err := true, errCode := e.code,
    errArg0 := e.args.1, errArg1 := e.args.2.1, errArg2 := e.args.2.2 }

/-- How the engine's step answers for a body (R205, R415). -/
def finish : Stage → Host.Outcome State Fault Refusal
  | .ok s => .next (complete s)
  | .raised e s => .next (errorComplete e s)
  | .stuck f => .fault f

/-- One body after another: what follows a `raise` does not run (R414). -/
def Stage.andThen (a : Stage) (f : State → Stage) : Stage :=
  match a with
  | .ok s => f s
  | .raised e s => .raised e s
  | .stuck g => .stuck g

/-- OUT_LEN, TREE_BITS, PAYLOAD_BITS and STOP_POS to 0 (R43, R48). -/
def clearOut (s : State) : State :=
  { s with outLen := 0, treeBits := 0, payloadBits := 0, stopPos := 0 }

/-- `Reset` (R450, R452): registers at their reset values, every window word unspecified, a running command abandoned.
The parameters stay; the host's later events stay; the draws go on (log 2, log 6). -/
def resetStep (s : State) : State := State.resetAt s.cfg s.pending s.draws

end Sys2Proof.Machine
end

