-- ==== Sys2Proof/Machine/Flags.lean ====
section
/-! DEFINITION. STATUS (10_state.md R37 to R39), CTRL (R35), the interrupt output (60_exceptions.md R420) and the
validity flags with the registers that follow them (R45 to R47, R297, R351). -/

namespace Sys2Proof.Machine

/-- STATUS as a host reads it (R37, R39): while BUSY = 1, DONE, ERR, TREE_VALID and CODES_VALID read 0. Bits [31:6]
read 0. -/
def State.status (s : State) : Word :=
  let bit (b : Bool) (i : Nat) : Word := if b then 1#32 <<< i else 0
  bit s.busy 0 ||| bit (s.done && !s.busy) 1 ||| bit (s.err && !s.busy) 2 ||| bit s.haz 3 |||
    bit (s.treeValid && !s.busy) 4 ||| bit (s.codesValid && !s.busy) 5

/-- A host write of `v` to STATUS (R38): a 1 in bit 1, 2 or 3 clears DONE, ERR or HAZ. -/
def ackStatus (v : Word) (s : State) : State :=
  { s with
    done := s.done && !v.getLsbD 1, err := s.err && !v.getLsbD 2, haz := s.haz && !v.getLsbD 3 }

/-- CTRL as a host reads it (R35): bits [31:1] read 0. -/
def State.ctrl (s : State) : Word := if s.irqEn then 1 else 0

/-- A host write of `v` to CTRL (R35): bits [31:1] are ignored. -/
def writeCtrl (v : Word) (s : State) : State := { s with irqEn := v.getLsbD 0 }

/-- The interrupt output (R420). -/
def State.irq (s : State) : Bool := s.irqEn && s.done

/-- A hazard (R210). -/
def setHaz (s : State) : State := { s with haz := true }

/-- What BUILD and DECODE write at their start (R260, R350, R351). -/
def clearTree (s : State) : State :=
  { s with treeValid := false, codesValid := false, codeN := 0, nodeN := 0, root := NIL }

/-- What GENCODES writes at its start (R290). -/
def clearCodes (s : State) : State := { s with codesValid := false, codeN := 0 }

end Sys2Proof.Machine
end

