-- ==== Sys2Proof/Machine/Operands.lean ====
section
/-! DEFINITION. The operands of the commands (30_encoding.md R141): characters, the text, the stream bits, and the entries
of FREQ, NODE and CODE, read and written by element index (20_memory.md R108). -/

namespace Sys2Proof.Machine

/-- A valid code point (00_scope.md R13). -/
def validCodePoint (v : Word) : Bool :=
  decide (v.toNat ≤ 0x10FFFF) && !(decide (0xD800 ≤ v.toNat) && decide (v.toNat ≤ 0xDFFF))

/-- The 32 bits of a code point, bit 31 first (R101). -/
def wordBits (w : Word) : List Bool := (List.range 32).map (fun k => w.getLsbD (31 - k))

/-! ### IBUF and the stream -/

/-- `IBUF[i]` (R50). -/
def ibufWord (m : Memory) (i : Nat) : Word := m.readWord (4 * i)

/-- `IBUF[0 .. n-1]`. -/
def ibufWords (m : Memory) (n : Nat) : List Word := (List.range n).map (ibufWord m)

/-- Stream bit `p`: bit `7 - (p mod 8)` of byte `p div 8` (R100), the byte being bits [7:0] of the element (R50). -/
def streamBit (m : Memory) (p : Nat) : Bool := (ibufWord m (p / 8)).getLsbD (7 - p % 8)

/-! ### FREQ -/

/-- `FREQ[i]` (R60). -/
def freqEntry (m : Memory) (i : Nat) : FreqEntry := ⟨m.readWord (8 * i), m.readWord (8 * i + 4)⟩

def freqEntries (m : Memory) (n : Nat) : List FreqEntry := (List.range n).map (freqEntry m)

def FreqEntry.words (e : FreqEntry) : List Word := [e.sym, e.count]

/-! ### NODE -/

/-- The eight words of a node (R64). -/
def Node.words : Node → List Word
  | .empty => [0, 0, 0, 0, 0, 0, 0, 0]
  | .leaf c w => [2, c, 0, 0, w.extractLsb' 0 32, w.extractLsb' 32 32, 0, 0]
  | .internal a b w => [1, a, b, 0, w.extractLsb' 0 32, w.extractLsb' 32 32, 0, 0]

/-- `NODE[i].KIND`, bits [1:0] of word 0. -/
def nodeKind (m : Memory) (i : Nat) : BitVec 2 := (m.readWord (32 * i)).extractLsb' 0 2

/-- `NODE[i].A` and `NODE[i].B`. -/
def nodeA (m : Memory) (i : Nat) : Word := m.readWord (32 * i + 4)

def nodeB (m : Memory) (i : Nat) : Word := m.readWord (32 * i + 8)

/-- `NODE[i].WEIGHT`. -/
def nodeWeight (m : Memory) (i : Nat) : DWord := m.readWord (32 * i + 20) ++ m.readWord (32 * i + 16)

/-- The tree below node `i`, as the walks of R290 and R312 meet it: a node whose KIND is LEAF is a leaf, any other goes
on to A and B. `none` when a path is longer than `fuel` nodes; with `fuel = NODE_CAP` that is no tree (log 10). -/
def readTree (m : Memory) : Nat → Nat → Option Tree
  | 0, _ => none
  | fuel + 1, i =>
    if nodeKind m i = 2 then some (.leaf (nodeA m i))
    else
      match readTree m fuel (nodeA m i).toNat, readTree m fuel (nodeB m i).toNat with
      | some l, some r => some (.node l r)
      | _, _ => none

/-- The tree the engine holds (ROOT and the node memory). -/
def State.tree (s : State) : Option Tree := readTree s.node s.cfg.nodeCap s.root.toNat

/-- The number of leaves. -/
def Tree.leaves : Tree → Nat
  | .leaf _ => 1
  | .node l r => l.leaves + r.leaves

/-- The preorder serialization of a tree (30_encoding.md R151). -/
def Tree.bits : Tree → List Bool
  | .leaf c => true :: wordBits c
  | .node l r => false :: (l.bits ++ r.bits)

/-! ### CODE -/

/-- `CODE[i]` (R70). -/
def codeEntry (m : Memory) (i : Nat) : CodeEntry :=
  ⟨m.readWord (16 * i), m.readWord (16 * i + 4), m.readWord (16 * i + 12) ++ m.readWord (16 * i + 8)⟩

def codeEntries (m : Memory) (n : Nat) : List CodeEntry := (List.range n).map (codeEntry m)

def CodeEntry.words (e : CodeEntry) : List Word :=
  [e.sym, e.len, e.val.extractLsb' 0 32, e.val.extractLsb' 32 32]

/-- The value of a bit string, first bit most significant (R71). -/
def codeValue (bs : List Bool) : DWord := bs.foldl (fun v b => (v <<< 1) ||| (if b then 1 else 0)) 0

/-- The bits `VAL[LEN-1]` down to `VAL[0]` of an entry (R313). -/
def CodeEntry.bits (e : CodeEntry) : List Bool :=
  (List.range e.len.toNat).map (fun k => e.val.getLsbD (e.len.toNat - 1 - k))

end Sys2Proof.Machine
end

