-- ==== Sys2Proof/Machine/Bus.lean ====
section
/-! DEFINITION. The host's side: the address map (10_state.md R33, 20_memory.md R106, R109), the access types (R107), the
busy-access rule (40_command_lifecycle.md R210), and which agent moves (R206). -/

namespace Sys2Proof.Machine

/-! ### The address map (R33) -/

/-- The offset of a register from HUFF_BASE. -/
def Reg.offset : Reg → Nat
  | .id => 0x00
  | .version => 0x04
  | .cfgNsym => 0x08
  | .cfgIncap => 0x0C
  | .cfgOutcap => 0x10
  | .cfgLmax => 0x14
  | .ctrl => 0x20
  | .cmd => 0x24
  | .status => 0x28
  | .errCode => 0x2C
  | .errArg0 => 0x30
  | .errArg1 => 0x34
  | .errArg2 => 0x38
  | .inLen => 0x40
  | .outLen => 0x44
  | .freqN => 0x48
  | .nodeN => 0x4C
  | .root => 0x50
  | .codeN => 0x54
  | .treeBits => 0x58
  | .payloadBits => 0x5C
  | .stopPos => 0x60

/-- The registers, in the order of their offsets. -/
def allRegs : List Reg :=
  [.id, .version, .cfgNsym, .cfgIncap, .cfgOutcap, .cfgLmax, .ctrl, .cmd, .status, .errCode, .errArg0, .errArg1,
    .errArg2, .inLen, .outLen, .freqN, .nodeN, .root, .codeN, .treeBits, .payloadBits, .stopPos]

def allWins : List Win := [.ibuf, .obuf, .freq, .node, .code]

/-- The offset of a window's first word from HUFF_BASE. -/
def Win.base : Win → Nat
  | .ibuf => 0x01000000
  | .obuf => 0x02000000
  | .freq => 0x03000000
  | .node => 0x04000000
  | .code => 0x05000000

/-- How many bytes of the window are mapped: elements times stride (R33, R109). -/
def Win.size (c : Config) : Win → Nat
  | .ibuf => 4 * c.inCap
  | .obuf => 4 * c.outCap
  | .freq => 8 * c.nSym
  | .node => 32 * c.nodeCap
  | .code => 16 * c.nSym

/-- What the offset `o` names; every offset not in the table of R33 is unmapped (R106). -/
def locate (c : Config) (o : Nat) : Loc :=
  match allRegs.find? (fun r => r.offset = o) with
  | some r => .reg r
  | none =>
    match allWins.find? (fun w => w.base ≤ o ∧ o < w.base + w.size c) with
    | some w => .window w (o - w.base)
    | none => .unmapped

/-- What a bus address names: HUFF_BASE is added to every address of the spec (R109; log 7). -/
def State.locate (s : State) (addr : Word) : Loc := Sys2Proof.Machine.locate s.cfg (addr - s.cfg.base).toNat

/-! ### Access types (R33, R107) -/

/-- The value a read of a register gives. -/
def State.readReg (s : State) : Reg → Word
  | .id => 0x48554646
  | .version => 0x00000001
  | .cfgNsym => BitVec.ofNat 32 s.cfg.nSym
  | .cfgIncap => BitVec.ofNat 32 s.cfg.inCap
  | .cfgOutcap => BitVec.ofNat 32 s.cfg.outCap
  | .cfgLmax => BitVec.ofNat 32 s.cfg.lMax
  | .ctrl => s.ctrl
  | .cmd => s.lastCmd
  | .status => s.status
  | .errCode => s.errCode.setWidth 32
  | .errArg0 => s.errArg0
  | .errArg1 => s.errArg1
  | .errArg2 => s.errArg2
  | .inLen => s.inLen
  | .outLen => s.outLen
  | .freqN => s.freqN
  | .nodeN => s.nodeN
  | .root => s.root
  | .codeN => s.codeN
  | .treeBits => s.treeBits
  | .payloadBits => s.payloadBits
  | .stopPos => s.stopPos

/-- A write to a register, where the busy-access rule lets it through: CTRL, CMD (acceptance, R200), STATUS (W1C, R38),
IN_LEN and FREQ_N take it; the others are read-only (R107). -/
def writeReg (r : Reg) (v : Word) (s : State) : State :=
  match r with
  | .ctrl => writeCtrl v s
  | .cmd => accept v s
  | .status => ackStatus v s
  | .inLen => { s with inLen := v }
  | .freqN => { s with freqN := v }
  | .id => s
  | .version => s
  | .cfgNsym => s
  | .cfgIncap => s
  | .cfgOutcap => s
  | .cfgLmax => s
  | .errCode => s
  | .errArg0 => s
  | .errArg1 => s
  | .errArg2 => s
  | .outLen => s
  | .nodeN => s
  | .root => s
  | .codeN => s
  | .treeBits => s
  | .payloadBits => s
  | .stopPos => s

/-- IBUF and FREQ are read-write, OBUF, NODE and CODE read-only to the host (R33). -/
def Win.writable : Win → Bool
  | .ibuf => true
  | .obuf => false
  | .freq => true
  | .node => false
  | .code => false

def State.readLoc (s : State) : Loc → Word
  | .reg r => s.readReg r
  | .window w o => (s.win w).readWord o
  | .unmapped => 0

def writeLoc (l : Loc) (v : Word) (s : State) : State :=
  match l with
  | .reg r => writeReg r v s
  | .window w o => if w.writable then s.setWin w ((s.win w).writeWord o v) else s
  | .unmapped => s

/-! ### The busy-access rule (R210) -/

/-- The registers a host may read and write while BUSY = 1. -/
def Reg.busyAllowed : Reg → Bool
  | .id => true
  | .version => true
  | .cfgNsym => true
  | .cfgIncap => true
  | .cfgOutcap => true
  | .cfgLmax => true
  | .ctrl => true
  | .status => true
  | .cmd => false
  | .errCode => false
  | .errArg0 => false
  | .errArg1 => false
  | .errArg2 => false
  | .inLen => false
  | .outLen => false
  | .freqN => false
  | .nodeN => false
  | .root => false
  | .codeN => false
  | .treeBits => false
  | .payloadBits => false
  | .stopPos => false

/-- A read of CMD is busy-allowed as well. -/
def Loc.readAllowed : Loc → Bool
  | .reg r => r.busyAllowed || decide (r = .cmd)
  | .window _ _ => false
  | .unmapped => false

def Loc.writeAllowed : Loc → Bool
  | .reg r => r.busyAllowed
  | .window _ _ => false
  | .unmapped => false

/-- `HostRead(addr)` (R15): a hazard reads 0 and sets HAZ (R210); any other read leaves the state (R105). -/
def hostRead (addr : Word) (s : State) : Word × State :=
  if s.busy && !(s.locate addr).readAllowed then (0, setHaz s) else (s.readLoc (s.locate addr), s)

/-- `HostWrite(addr, data)` (R15): a hazard is dropped and sets HAZ (R203, R210). -/
def hostWrite (addr data : Word) (s : State) : State :=
  if s.busy && !(s.locate addr).writeAllowed then setHaz s else writeLoc (s.locate addr) data s

/-- The byte address is a form the bus can carry (R103). -/
def wordAligned (addr : Word) : Bool := decide (addr.toNat % 4 = 0)

/-- One host event (R15, R450): a read's response is the data, a write's is 0 (R14). -/
def hostEvent (e : HostEvent) (s : State) : Host.Outcome State Fault Refusal :=
  match e with
  | .read a =>
    if wordAligned a then .next { (hostRead a s).2 with rsp := some (hostRead a s).1 }
    else .refused (.misalignedAddress a)
  | .write a v =>
    if wordAligned a then .next { hostWrite a v s with rsp := some 0 }
    else .refused (.misalignedAddress a)
  | .reset => .next (resetStep s)

/-! ### Which agent moves (R206) -/

/-- The engine completes its command now: no host event is left, or none is to come before the completion (log 3). -/
def State.engineMoves (s : State) : Bool := s.busy && (s.pending.isEmpty || decide (s.busyTurns = 0))

/-- The command the engine executes (R201). -/
def State.command (s : State) : Instr := decode s.lastCmd

/-- The host's turn: its next event; with none, the idle block waits (R453; log 12). -/
def hostTurn (s : State) : Host.Outcome State Fault Refusal :=
  match s.pending with
  | [] => .next s
  | e :: q => hostEvent e { s with pending := q, busyTurns := s.busyTurns - 1 }

/-- The word `w` accepted, with its completion as the next step (log 11). -/
def submitWord (nbits w : Nat) (s : State) : State :=
  { acceptRegs (BitVec.ofNat 32 (w % 2 ^ nbits)) s with busyTurns := 0 }

end Sys2Proof.Machine
end

