-- ==== Sys2Proof/Machine/Build.lean ====
section
/-! DEFINITION. The Tree Builder, BUILD (42_tree_builder.md). -/

namespace Sys2Proof.Machine

/-- The check of the frequency mapping (R261), at index `i` with the character of the entry before. -/
def checkFreq : Nat → Option Word → List FreqEntry → Except CmdError Unit
  | _, _, [] => .ok ()
  | i, prev, e :: es =>
    if validCodePoint e.sym = false then .error (.invalidCodePoint i e.sym)
    else
      match prev with
      | some p =>
        if e.sym.toNat ≤ p.toNat then .error (.freqTableInvalid i e.sym p)
        else checkFreq (i + 1) (some e.sym) es
      | none => checkFreq (i + 1) (some e.sym) es

/-- The key order `(weight, node index)` of the tie-break (R263). -/
def keyLt (x y : PQEntry) : Bool :=
  decide (x.weight.toNat < y.weight.toNat) ||
    (decide (x.weight = y.weight) && decide (x.index < y.index))

/-- `PQ.insert`. The queue is the list of its entries in ascending key order, so `extractMin` takes its head (R80, R263;
log 15). -/
def pqInsert (x : PQEntry) : List PQEntry → List PQEntry
  | [] => [x]
  | y :: ys => if keyLt x y then x :: y :: ys else y :: pqInsert x ys

/-- One Leaf per entry, at its index (R262). -/
def leafNodes (es : List FreqEntry) : List Node := es.map (fun e => .leaf e.sym (e.count.setWidth 64))

/-- The queue of the leaves, the first of `es` having index `i` (R262). -/
def leafQueue : Nat → List FreqEntry → List PQEntry
  | _, [] => []
  | i, e :: es => pqInsert ⟨e.count.setWidth 64, i⟩ (leafQueue (i + 1) es)

/-- The merge loop (R264): the Internal nodes from index `next` on, in order of creation, and the root (R265). One merge
takes two entries and puts one back, so `fuel` = the number of entries is enough. -/
def mergeLoop : Nat → List PQEntry → Nat → List Node × Nat
  | fuel + 1, x :: y :: q, next =>
    let w := x.weight + y.weight
    let (ns, r) := mergeLoop fuel (pqInsert ⟨w, next⟩ q) (next + 1)
    (.internal (BitVec.ofNat 32 x.index) (BitVec.ofNat 32 y.index) w :: ns, r)
  | _, q, _ => ([], (q.head?.map PQEntry.index).getD 0)

/-- NODE and ROOT of a successful BUILD (R260). -/
def buildNodes (es : List FreqEntry) : List Node × Nat :=
  let (ns, r) := mergeLoop es.length (leafQueue 0 es) es.length
  (leafNodes es ++ ns, r)

/-- A tree put in the node memory: every entry is written, NODE_N, ROOT and TREE_VALID say so (R260, R350). -/
def installTree (ns : List Node) (r : Nat) (s : State) : State :=
  { s with
    node := Memory.ofWords (ns.flatMap Node.words), nodeN := BitVec.ofNat 32 ns.length,
    root := BitVec.ofNat 32 r, treeValid := true }

/-- The error effects of BUILD beyond what it writes at its start (R416). -/
def buildFailed (s : State) : State := scramble .node s

/-- The body of BUILD after its start (R260). -/
def buildFrom (s : State) : Stage :=
  if s.freqN = 0 then .raised .emptyInput (buildFailed s)
  else if s.cfg.nSym < s.freqN.toNat then
    .raised (.capacity 2 s.freqN.toNat s.cfg.nSym) (buildFailed s)
  else
    match checkFreq 0 none (freqEntries s.freq s.freqN.toNat) with
    | .error e => .raised e (buildFailed s)
    | .ok () =>
      let (ns, r) := buildNodes (freqEntries s.freq s.freqN.toNat)
      .ok (installTree ns r s)

/-- The body of BUILD (R260). -/
def buildBody (s : State) : Stage := buildFrom (clearTree s)

/-- BUILD (R260). -/
def execBuild (s : State) : Host.Outcome State Fault Refusal := finish (buildBody s)

end Sys2Proof.Machine
end

