-- ==== Sys2Proof/Machine/Control.lean ====
section
/-! DEFINITION. The control commands NOP and CLEAR (40_command_lifecycle.md R220, R222). -/

namespace Sys2Proof.Machine

/-- NOP (R220): complete with no effect. -/
def execNop (s : State) : Host.Outcome State Fault Refusal := finish (.ok s)

/-- The body of CLEAR (R222). -/
def clearBody (s : State) : State :=
  clearOut { s with freqN := 0, nodeN := 0, root := NIL, codeN := 0, treeValid := false, codesValid := false }

/-- CLEAR (R222). -/
def execClear (s : State) : Host.Outcome State Fault Refusal := finish (.ok (clearBody s))

end Sys2Proof.Machine
end

