-- ==== Sys2Proof/Machine/Count.lean ====
section
/-! DEFINITION. The Frequency Counter, COUNT (41_frequency_counter.md). -/

namespace Sys2Proof.Machine

/-- `c in tab` (R240). -/
def hasSym (c : Word) (tab : List FreqEntry) : Bool := tab.any (fun e => e.sym = c)

/-- One more occurrence of `c`; `tab` is kept in ascending order of character, the order R240 writes it in (log 15). -/
def bump (c : Word) : List FreqEntry → List FreqEntry
  | [] => [⟨c, 1⟩]
  | e :: es =>
    if c = e.sym then ⟨e.sym, e.count + 1⟩ :: es
    else if c.toNat < e.sym.toNat then ⟨c, 1⟩ :: e :: es
    else e :: bump c es

/-- The loop of R240 over the text, at index `i`. -/
def countText (nSym : Nat) : Nat → List Word → List FreqEntry → Except CmdError (List FreqEntry)
  | _, [], tab => .ok tab
  | i, c :: cs, tab =>
    if validCodePoint c = false then .error (.invalidCodePoint i c)
    else if hasSym c tab = false ∧ tab.length = nSym then .error (.capacity 2 (nSym + 1) nSym)
    else countText nSym (i + 1) cs (bump c tab)

/-- FREQ and FREQ_N of a successful COUNT (R240): every entry is written. -/
def installFreq (tab : List FreqEntry) (s : State) : State :=
  { s with freq := Memory.ofWords (tab.flatMap FreqEntry.words), freqN := BitVec.ofNat 32 tab.length }

/-- The error effects of COUNT (R416). -/
def countFailed (s : State) : State := scramble .freq { s with freqN := 0 }

/-- The body of COUNT (R240). -/
def countBody (s : State) : Stage :=
  if s.cfg.inCap < s.inLen.toNat then .raised (.capacity 1 s.inLen.toNat s.cfg.inCap) (countFailed s)
  else
    match countText s.cfg.nSym 0 (ibufWords s.ibuf s.inLen.toNat) [] with
    | .error e => .raised e (countFailed s)
    | .ok tab => .ok (installFreq tab s)

/-- COUNT (R240). -/
def execCount (s : State) : Host.Outcome State Fault Refusal := finish (countBody s)

end Sys2Proof.Machine
end

