-- ==== Sys2Proof/Machine/Gencodes.lean ====
section
/-! DEFINITION. The Code Table Generator, GENCODES (43_code_table.md). -/

namespace Sys2Proof.Machine

/-- `visit(i, s)` (R290, R291): the leaves below a node reached by the path `s`, each with its path. -/
def pathsFrom : Tree → List Bool → List (Word × List Bool)
  | .leaf c, s => [(c, s)]
  | .node l r, s => pathsFrom l (s ++ [false]) ++ pathsFrom r (s ++ [true])

/-- The list L of R290: a bare Leaf gets the code "0" (R292), else each leaf its path. -/
def leafCodes : Tree → List (Word × List Bool)
  | .leaf c => [(c, [false])]
  | .node l r => pathsFrom (.node l r) []

/-- The least of some characters. -/
def leastSym : List Word → Option Word
  | [] => none
  | c :: cs =>
    match leastSym cs with
    | none => some c
    | some d => some (if c.toNat ≤ d.toNat then c else d)

/-- The check of R293: the least character among the codes longer than L_MAX, and the greatest length of its too long
codes. -/
def tooLong (lMax : Nat) (l : List (Word × List Bool)) : Option CmdError :=
  let too := l.filter (fun p => lMax < p.2.length)
  (leastSym (too.map Prod.fst)).map fun c0 =>
    .codeTooLong c0 (((too.filter (fun p => p.1 = c0)).map (fun p => p.2.length)).foldl max 0) lMax

/-- The check of R294: the least repeated character. -/
def repeated (l : List (Word × List Bool)) : Option CmdError :=
  let cs := l.map Prod.fst
  (leastSym (cs.filter (fun c => 2 ≤ cs.count c))).map .duplicateSymbol

/-- One entry of CODE (R70, R71). -/
def toCodeEntry (p : Word × List Bool) : CodeEntry := ⟨p.1, BitVec.ofNat 32 p.2.length, codeValue p.2⟩

def insertCode (p : Word × List Bool) : List (Word × List Bool) → List (Word × List Bool)
  | [] => [p]
  | q :: qs => if p.1.toNat ≤ q.1.toNat then p :: q :: qs else q :: insertCode p qs

/-- `sort L in ascending order of character` (R290). -/
def sortCodes : List (Word × List Bool) → List (Word × List Bool)
  | [] => []
  | p :: ps => insertCode p (sortCodes ps)

/-- The code table of a tree, or the error (R290, R293, R294). -/
def codeTable (lMax : Nat) (t : Tree) : Except CmdError (List CodeEntry) :=
  match tooLong lMax (leafCodes t) with
  | some e => .error e
  | none =>
    match repeated (leafCodes t) with
    | some e => .error e
    | none => .ok ((sortCodes (leafCodes t)).map toCodeEntry)

/-- CODE, CODE_N and CODES_VALID of a successful GENCODES (R290): every entry is written. -/
def installCodes (cs : List CodeEntry) (s : State) : State :=
  { s with
    code := Memory.ofWords (cs.flatMap CodeEntry.words), codeN := BitVec.ofNat 32 cs.length,
    codesValid := true }

/-- The error effects of GENCODES beyond what it writes at its start (R416). -/
def gencodesFailed (s : State) : State := scramble .code s

/-- The body of GENCODES after its start (R290). -/
def gencodesFrom (s : State) : Stage :=
  if s.treeValid = false then .raised (.notReady 0x10) (gencodesFailed s)
  else
    match s.tree with
    | none => .stuck .nodeMemoryNotATree
    | some t =>
      match codeTable s.cfg.lMax t with
      | .error e => .raised e (gencodesFailed s)
      | .ok cs => .ok (installCodes cs s)

/-- The body of GENCODES (R290). -/
def gencodesBody (s : State) : Stage := gencodesFrom (clearCodes s)

/-- GENCODES (R290). -/
def execGencodes (s : State) : Host.Outcome State Fault Refusal := finish (gencodesBody s)

end Sys2Proof.Machine
end

