-- ==== Sys2Proof/Machine/Encoder.lean ====
section
/-! DEFINITION. The Bitstream Encoder: the bit-packer, SERIALIZE and ENCODE (44_encoder.md). -/

namespace Sys2Proof.Machine

/-! ### The bit-packer (R311) -/

/-- The cursor at the start of SERIALIZE (R81, R311). -/
def EncCursor.start : EncCursor := ⟨0, 7, 0, []⟩

/-- `flush(v)` with `k` the number of bytes flushed and `cap` = OUT_CAP (R311, R316). -/
def flush (cap : Nat) (v : Byte) (c : EncCursor) : Except CmdError EncCursor :=
  if c.out.length = cap then .error (.capacity 4 (c.out.length + 1) cap)
  else .ok { c with out := c.out ++ [v] }

/-- `ACC[pos] <- b`. -/
def setAccBit (acc : Byte) (pos : Nat) (b : Bool) : Byte :=
  (acc &&& ~~~(1#8 <<< pos)) ||| (if b then 1#8 <<< pos else 0)

/-- `emitBit(b)` (R311). -/
def emitBit (cap : Nat) (b : Bool) (c : EncCursor) : Except CmdError EncCursor :=
  let c1 := { c with acc := setAccBit c.acc c.bitpos b, nbits := c.nbits + 1 }
  if c.bitpos = 0 then
    match flush cap c1.acc c1 with
    | .error e => .error e
    | .ok c2 => .ok { c2 with acc := 0, bitpos := 7 }
  else .ok { c1 with bitpos := c.bitpos - 1 }

/-- The bits of a bit string, emitted in order. -/
def emitBits (cap : Nat) : List Bool → EncCursor → Except CmdError EncCursor
  | [], c => .ok c
  | b :: bs, c =>
    match emitBit cap b c with
    | .error e => .error e
    | .ok c1 => emitBits cap bs c1

/-! ### SERIALIZE (R310) -/

/-- The payload loop (R310, R313), at index `i` of the text. -/
def emitText (cap : Nat) (codes : List CodeEntry) : Nat → List Word → EncCursor → Except CmdError EncCursor
  | _, [], c => .ok c
  | i, x :: xs, c =>
    if validCodePoint x = false then .error (.invalidCodePoint i x)
    else
      match codes.find? (fun e => e.sym = x) with
      | none => .error (.symbolNotInTable i x)
      | some e =>
        match emitBits cap e.bits c with
        | .error err => .error err
        | .ok c1 => emitText cap codes (i + 1) xs c1

/-- The trailer (R310, R314), with `bw = 7 - BITPOS`. -/
def emitTrailer (cap : Nat) (c : EncCursor) : Except CmdError EncCursor :=
  let bw := 7 - c.bitpos
  if bw < 6 then flush cap (c.acc ||| BitVec.ofNat 8 (bw + 2)) c
  else
    match flush cap c.acc c with
    | .error e => .error e
    | .ok c1 => flush cap (BitVec.ofNat 8 ((bw + 2) % 8)) c1

/-- What a successful SERIALIZE produces: the stream's bytes, `T` and `P`. -/
structure Stream where
  bytes : List Byte
  treeLen : Nat
  payloadLen : Nat
deriving DecidableEq, Repr

/-- The stream of a text with a tree and a code table (R310): the three regions, in order. -/
def serialize (cap : Nat) (t : Tree) (codes : List CodeEntry) (text : List Word) : Except CmdError Stream :=
  match emitBits cap t.bits EncCursor.start with
  | .error e => .error e
  | .ok c1 =>
    match emitText cap codes 0 text c1 with
    | .error e => .error e
    | .ok c2 =>
      match emitTrailer cap c2 with
      | .error e => .error e
      | .ok c3 => .ok ⟨c3.out, c1.nbits, c2.nbits - c1.nbits⟩

/-- OBUF and the stream registers of a successful SERIALIZE (R310, R315); OBUF past OUT_LEN keeps its words (R51). -/
def installStream (r : Stream) (s : State) : State :=
  { s with
    obuf := s.obuf.writeWords 0 (r.bytes.map (fun b => b.setWidth 32)),
    outLen := BitVec.ofNat 32 r.bytes.length, treeBits := BitVec.ofNat 32 r.treeLen,
    payloadBits := BitVec.ofNat 32 r.payloadLen, stopPos := BitVec.ofNat 32 (r.treeLen + r.payloadLen) }

/-- The error effects of SERIALIZE, and of ENCODE whatever the stage (R416). -/
def outputFailed (s : State) : State := scramble .obuf (clearOut s)

/-- The mask of the missing STATUS bits (R310, R406). -/
def missingMask (s : State) : Word :=
  (if s.treeValid then 0 else 0x10) ||| (if s.codesValid then 0 else 0x20)

/-- The body of SERIALIZE (R310). -/
def serializeBody (s : State) : Stage :=
  if missingMask s ≠ 0 then .raised (.notReady (missingMask s)) (outputFailed s)
  else if s.cfg.inCap < s.inLen.toNat then
    .raised (.capacity 1 s.inLen.toNat s.cfg.inCap) (outputFailed s)
  else if s.inLen = 0 then .raised .emptyInput (outputFailed s)
  else
    match s.tree with
    | none => .stuck .nodeMemoryNotATree
    | some t =>
      match serialize s.cfg.outCap t (codeEntries s.code s.codeN.toNat)
          (ibufWords s.ibuf s.inLen.toNat) with
      | .error e => .raised e (outputFailed s)
      | .ok r => .ok (installStream r s)

/-- SERIALIZE (R310). -/
def execSerialize (s : State) : Host.Outcome State Fault Refusal := finish (serializeBody s)

/-! ### ENCODE (R320) -/

/-- What an error in any stage adds (R320, R416). -/
def Stage.encodeFailed : Stage → Stage
  | .ok s => .ok s
  | .raised e s => .raised e (outputFailed s)
  | .stuck f => .stuck f

/-- The body of ENCODE (R320): the four bodies, up to the first that raises. -/
def encodeBody (s : State) : Stage :=
  ((((countBody s).andThen buildBody).andThen gencodesBody).andThen serializeBody).encodeFailed

/-- ENCODE (R320). -/
def execEncode (s : State) : Host.Outcome State Fault Refusal := finish (encodeBody s)

end Sys2Proof.Machine
end

