-- ==== Sys2Proof/Machine/Decoder.lean ====
section
/-! DEFINITION. The Bitstream Decoder, DECODE (45_decoder.md). The stream is a function `bit` from positions to bits, `nb`
the number of its bits (R352). -/

namespace Sys2Proof.Machine

/-! ### Primitives (R352) -/

/-- `readBits(k)`: the number of the `k` bits from `pos` on, first bit most significant, and the new position. -/
def readBits (nb : Nat) (bit : Nat → Bool) (k pos : Nat) : Except CmdError (Nat × Nat) :=
  if nb < pos + k then .error (.truncatedStream pos (pos + k) nb)
  else .ok ((List.range k).foldl (fun v j => 2 * v + (bit (pos + j)).toNat) 0, pos + k)

/-- `readSym()`. -/
def readSym (nb : Nat) (bit : Nat → Bool) (pos : Nat) : Except CmdError (Word × Nat) :=
  match readBits nb bit 32 pos with
  | .error e => .error e
  | .ok (v, pos') =>
    if validCodePoint (BitVec.ofNat 32 v) = false then .error (.invalidCodePoint pos (BitVec.ofNat 32 v))
    else .ok (BitVec.ofNat 32 v, pos')

/-- `emitChar(c)`, `m` being the number of characters written. -/
def emitChar (outCap : Nat) (c : Word) (out : List Word) : Except CmdError (List Word) :=
  if out.length = outCap then .error (.capacity 4 (out.length + 1) outCap)
  else .ok (out ++ [c])

/-! ### Phase 1: tree reconstruction (R353 to R357) -/

/-- One new node: its tag, `newNode()`, and the character of a Leaf, in that order (R350, R355, R356). Answers whether it
is a Leaf, and the cursor with the node at its end. -/
def readNode (nb : Nat) (bit : Nat → Bool) (nodeCap : Nat) (c : DecCursor) : Except CmdError (Bool × DecCursor) :=
  match readBits nb bit 1 c.pos with
  | .error e => .error e
  | .ok (b, pos1) =>
    if c.nodes.length = nodeCap then .error (.capacity 3 (c.nodes.length + 1) nodeCap)
    else if b = 0 then .ok (false, ⟨pos1, c.nodes ++ [.internal NIL NIL 0]⟩)
    else
      match readSym nb bit pos1 with
      | .error e => .error e
      | .ok (x, pos2) => .ok (true, ⟨pos2, c.nodes ++ [.leaf x 0]⟩)

/-- Node `j` into the first empty slot of node `p`, left before right (R354); whether `p` is full now. -/
def attach (nodes : List Node) (p j : Nat) : List Node × Bool :=
  match nodes[p]? with
  | some (.internal a b w) =>
    if a = NIL then (nodes.set p (.internal (BitVec.ofNat 32 j) b w), false)
    else (nodes.set p (.internal a (BitVec.ofNat 32 j) w), true)
  | _ => (nodes, true)

/-- The loop of Phase 1 (R350): the stack holds the Internal nodes with a missing child, the holder of the first empty slot
on top. Every round reads a bit, so `fuel` = the number of stream bits never runs out (log 15). -/
def fillSlots (nb : Nat) (bit : Nat → Bool) (nodeCap : Nat) :
    Nat → DecCursor → List Nat → Except CmdError DecCursor
  | _, c, [] => .ok c
  | 0, c, _ :: _ => .error (.truncatedStream c.pos (c.pos + 1) nb)
  | fuel + 1, c, p :: stack =>
    match readNode nb bit nodeCap c with
    | .error e => .error e
    | .ok (isLeaf, c1) =>
      let j := c.nodes.length
      let (nodes, full) := attach c1.nodes p j
      let below := if full then stack else p :: stack
      fillSlots nb bit nodeCap fuel ⟨c1.pos, nodes⟩ (if isLeaf then below else j :: below)

/-- Phase 1 (R350, R353, R354): the nodes in stream order, and `T`. -/
def readTreeRegion (nb : Nat) (bit : Nat → Bool) (nodeCap : Nat) : Except CmdError DecCursor :=
  match readNode nb bit nodeCap ⟨0, []⟩ with
  | .error e => .error e
  | .ok (isLeaf, c) => fillSlots nb bit nodeCap nb c (if isLeaf then [] else [0])

/-! ### Phase 2: trailer interpretation (R358) -/

/-- The stop position `S`, from `T` and the low three bits of the last byte. -/
def stopPosition (nb t low3 : Nat) : Except CmdError Nat :=
  if nb < t + 3 then .error (.truncatedStream t (t + 3) nb)
  else if nb - 10 + low3 < t then .error (.malformedTrailer (nb - 10 + low3) t nb)
  else .ok (nb - 10 + low3)

/-! ### Phase 3: payload decode (R359, R360) -/

/-- The payload of a single-character stream (R360): bits from `pos` on. -/
def decodeSingle (sym : Word) (outCap : Nat) : List Bool → Nat → List Word → Except CmdError (List Word)
  | [], _, out => .ok out
  | b :: bs, pos, out =>
    if b then .error (.malformedPayload pos)
    else
      match emitChar outCap sym out with
      | .error e => .error e
      | .ok out1 => decodeSingle sym outCap bs (pos + 1) out1

/-- The walks from the root (R359): the bits up to the stop position, `x` the node reached, 0 (the root) between two
characters. -/
def decodeWalk (nodes : List Node) (outCap stop : Nat) :
    List Bool → Nat → List Word → Except CmdError (List Word)
  | [], x, out => if x = 0 then .ok out else .error (.truncatedStream stop (stop + 1) stop)
  | b :: bs, x, out =>
    let y :=
      match nodes.getD x .empty with
      | .internal l r _ => if b then r.toNat else l.toNat
      | .leaf _ _ => 0
      | .empty => 0
    match nodes.getD y .empty with
    | .leaf c _ =>
      match emitChar outCap c out with
      | .error e => .error e
      | .ok out1 => decodeWalk nodes outCap stop bs 0 out1
    | .internal _ _ _ => decodeWalk nodes outCap stop bs y out
    | .empty => decodeWalk nodes outCap stop bs y out

/-- Phase 3 (R350): the payload is the stream bits from `T` up to `S`. -/
def decodePayload (bit : Nat → Bool) (nodes : List Node) (outCap t stop : Nat) : Except CmdError (List Word) :=
  let payload := (List.range (stop - t)).map (fun k => bit (t + k))
  match nodes.getD 0 .empty with
  | .leaf c _ => decodeSingle c outCap payload t []
  | .internal _ _ _ => decodeWalk nodes outCap stop payload 0 []
  | .empty => decodeWalk nodes outCap stop payload 0 []

/-! ### The command -/

/-- What a successful DECODE produces: the nodes, the text, `T` and `S`. -/
structure Decoded where
  nodes : List Node
  text : List Word
  treeLen : Nat
  stop : Nat
deriving DecidableEq, Repr

/-- The three phases over a stream (R350). -/
def decodeStream (cfg : Config) (nb : Nat) (bit : Nat → Bool) (low3 : Nat) : Except CmdError Decoded :=
  match readTreeRegion nb bit cfg.nodeCap with
  | .error e => .error e
  | .ok c =>
    match stopPosition nb c.pos low3 with
    | .error e => .error e
    | .ok stop =>
      match decodePayload bit c.nodes cfg.outCap c.pos stop with
      | .error e => .error e
      | .ok text => .ok ⟨c.nodes, text, c.pos, stop⟩

/-- The results of a successful DECODE (R350, R362). -/
def installDecoded (d : Decoded) (s : State) : State :=
  { installTree d.nodes 0 s with
    obuf := s.obuf.writeWords 0 d.text, outLen := BitVec.ofNat 32 d.text.length,
    treeBits := BitVec.ofNat 32 d.treeLen, payloadBits := BitVec.ofNat 32 (d.stop - d.treeLen),
    stopPos := BitVec.ofNat 32 d.stop }

/-- The error effects of DECODE beyond what it writes at its start (R416). -/
def decodeFailed (s : State) : State := scramble .node (outputFailed s)

/-- The body of DECODE after its start (R350). -/
def decodeFrom (s : State) : Stage :=
  if s.cfg.inCap < s.inLen.toNat then .raised (.capacity 1 s.inLen.toNat s.cfg.inCap) (decodeFailed s)
  else
    match decodeStream s.cfg (8 * s.inLen.toNat) (streamBit s.ibuf)
        ((ibufWord s.ibuf (s.inLen.toNat - 1)).toNat % 8) with
    | .error e => .raised e (decodeFailed s)
    | .ok d => .ok (installDecoded d s)

/-- The body of DECODE (R350, R351). -/
def decodeBody (s : State) : Stage := decodeFrom (clearTree s)

/-- DECODE (R350). -/
def execDecode (s : State) : Host.Outcome State Fault Refusal := finish (decodeBody s)

end Sys2Proof.Machine
end

