-- ==== Sys2Proof/Machine/Illegal.lean ====
section
/-! DEFINITION. The 29 table rows that are no legal command: each completes at once with ILLEGAL_COMMAND
(30_encoding.md R143, R144, 60_exceptions.md R405). -/

namespace Sys2Proof.Machine

/-- ILLEGAL_COMMAND for the whole command word `w` (R405): no error effects (R416). -/
def illegalCommand (w : Word) (s : State) : Host.Outcome State Fault Refusal :=
  finish (.raised (.illegalCommand w) s)

/-- A reserved opcode 0x8 to 0xF (R143). -/
def execReservedOp (op : BitVec 4) (s : State) : Host.Outcome State Fault Refusal :=
  illegalCommand (encode (.reservedOp op)) s

/-- A word with reserved bit 4 set (R144). -/
def execRsvdBit4 (w : Word) (s : State) : Host.Outcome State Fault Refusal :=
  illegalCommand (encode (.rsvdBit4 w)) s

/-- A word with reserved bit 5 set (R144). -/
def execRsvdBit5 (w : Word) (s : State) : Host.Outcome State Fault Refusal :=
  illegalCommand (encode (.rsvdBit5 w)) s

/-- A word with reserved bit 6 set (R144). -/
def execRsvdBit6 (w : Word) (s : State) : Host.Outcome State Fault Refusal :=
  illegalCommand (encode (.rsvdBit6 w)) s

/-- A word with reserved bit 7 set (R144). -/
def execRsvdBit7 (w : Word) (s : State) : Host.Outcome State Fault Refusal :=
  illegalCommand (encode (.rsvdBit7 w)) s

/-- A word with reserved bit 8 set (R144). -/
def execRsvdBit8 (w : Word) (s : State) : Host.Outcome State Fault Refusal :=
  illegalCommand (encode (.rsvdBit8 w)) s

/-- A word with reserved bit 9 set (R144). -/
def execRsvdBit9 (w : Word) (s : State) : Host.Outcome State Fault Refusal :=
  illegalCommand (encode (.rsvdBit9 w)) s

/-- A word with reserved bit 10 set (R144). -/
def execRsvdBit10 (w : Word) (s : State) : Host.Outcome State Fault Refusal :=
  illegalCommand (encode (.rsvdBit10 w)) s

/-- A word with reserved bit 11 set (R144). -/
def execRsvdBit11 (w : Word) (s : State) : Host.Outcome State Fault Refusal :=
  illegalCommand (encode (.rsvdBit11 w)) s

/-- A word with reserved bit 12 set (R144). -/
def execRsvdBit12 (w : Word) (s : State) : Host.Outcome State Fault Refusal :=
  illegalCommand (encode (.rsvdBit12 w)) s

/-- A word with reserved bit 13 set (R144). -/
def execRsvdBit13 (w : Word) (s : State) : Host.Outcome State Fault Refusal :=
  illegalCommand (encode (.rsvdBit13 w)) s

/-- A word with reserved bit 14 set (R144). -/
def execRsvdBit14 (w : Word) (s : State) : Host.Outcome State Fault Refusal :=
  illegalCommand (encode (.rsvdBit14 w)) s

/-- A word with reserved bit 15 set (R144). -/
def execRsvdBit15 (w : Word) (s : State) : Host.Outcome State Fault Refusal :=
  illegalCommand (encode (.rsvdBit15 w)) s

/-- A word with reserved bit 16 set (R144). -/
def execRsvdBit16 (w : Word) (s : State) : Host.Outcome State Fault Refusal :=
  illegalCommand (encode (.rsvdBit16 w)) s

/-- A word with reserved bit 17 set (R144). -/
def execRsvdBit17 (w : Word) (s : State) : Host.Outcome State Fault Refusal :=
  illegalCommand (encode (.rsvdBit17 w)) s

/-- A word with reserved bit 18 set (R144). -/
def execRsvdBit18 (w : Word) (s : State) : Host.Outcome State Fault Refusal :=
  illegalCommand (encode (.rsvdBit18 w)) s

/-- A word with reserved bit 19 set (R144). -/
def execRsvdBit19 (w : Word) (s : State) : Host.Outcome State Fault Refusal :=
  illegalCommand (encode (.rsvdBit19 w)) s

/-- A word with reserved bit 20 set (R144). -/
def execRsvdBit20 (w : Word) (s : State) : Host.Outcome State Fault Refusal :=
  illegalCommand (encode (.rsvdBit20 w)) s

/-- A word with reserved bit 21 set (R144). -/
def execRsvdBit21 (w : Word) (s : State) : Host.Outcome State Fault Refusal :=
  illegalCommand (encode (.rsvdBit21 w)) s

/-- A word with reserved bit 22 set (R144). -/
def execRsvdBit22 (w : Word) (s : State) : Host.Outcome State Fault Refusal :=
  illegalCommand (encode (.rsvdBit22 w)) s

/-- A word with reserved bit 23 set (R144). -/
def execRsvdBit23 (w : Word) (s : State) : Host.Outcome State Fault Refusal :=
  illegalCommand (encode (.rsvdBit23 w)) s

/-- A word with reserved bit 24 set (R144). -/
def execRsvdBit24 (w : Word) (s : State) : Host.Outcome State Fault Refusal :=
  illegalCommand (encode (.rsvdBit24 w)) s

/-- A word with reserved bit 25 set (R144). -/
def execRsvdBit25 (w : Word) (s : State) : Host.Outcome State Fault Refusal :=
  illegalCommand (encode (.rsvdBit25 w)) s

/-- A word with reserved bit 26 set (R144). -/
def execRsvdBit26 (w : Word) (s : State) : Host.Outcome State Fault Refusal :=
  illegalCommand (encode (.rsvdBit26 w)) s

/-- A word with reserved bit 27 set (R144). -/
def execRsvdBit27 (w : Word) (s : State) : Host.Outcome State Fault Refusal :=
  illegalCommand (encode (.rsvdBit27 w)) s

/-- A word with reserved bit 28 set (R144). -/
def execRsvdBit28 (w : Word) (s : State) : Host.Outcome State Fault Refusal :=
  illegalCommand (encode (.rsvdBit28 w)) s

/-- A word with reserved bit 29 set (R144). -/
def execRsvdBit29 (w : Word) (s : State) : Host.Outcome State Fault Refusal :=
  illegalCommand (encode (.rsvdBit29 w)) s

/-- A word with reserved bit 30 set (R144). -/
def execRsvdBit30 (w : Word) (s : State) : Host.Outcome State Fault Refusal :=
  illegalCommand (encode (.rsvdBit30 w)) s

/-- A word with reserved bit 31 set (R144). -/
def execRsvdBit31 (w : Word) (s : State) : Host.Outcome State Fault Refusal :=
  illegalCommand (encode (.rsvdBit31 w)) s

end Sys2Proof.Machine
end

