-- ==== Sys2Proof/Machine/Dispatch.lean ====
section
/-! DEFINITION. The engine's step, one arm per command (40_command_lifecycle.md R201, R205): from the state after
acceptance to the state after completion. -/

namespace Sys2Proof.Machine

def exec (i : Instr) (s : State) : Host.Outcome State Fault Refusal :=
  match i with
  | .nop => Sys2Proof.Machine.execNop s
  | .clear => Sys2Proof.Machine.execClear s
  | .count => Sys2Proof.Machine.execCount s
  | .build => Sys2Proof.Machine.execBuild s
  | .gencodes => Sys2Proof.Machine.execGencodes s
  | .serialize => Sys2Proof.Machine.execSerialize s
  | .encode => Sys2Proof.Machine.execEncode s
  | .decode => Sys2Proof.Machine.execDecode s
  | .reservedOp op => Sys2Proof.Machine.execReservedOp op s
  | .rsvdBit4 w => Sys2Proof.Machine.execRsvdBit4 w s
  | .rsvdBit5 w => Sys2Proof.Machine.execRsvdBit5 w s
  | .rsvdBit6 w => Sys2Proof.Machine.execRsvdBit6 w s
  | .rsvdBit7 w => Sys2Proof.Machine.execRsvdBit7 w s
  | .rsvdBit8 w => Sys2Proof.Machine.execRsvdBit8 w s
  | .rsvdBit9 w => Sys2Proof.Machine.execRsvdBit9 w s
  | .rsvdBit10 w => Sys2Proof.Machine.execRsvdBit10 w s
  | .rsvdBit11 w => Sys2Proof.Machine.execRsvdBit11 w s
  | .rsvdBit12 w => Sys2Proof.Machine.execRsvdBit12 w s
  | .rsvdBit13 w => Sys2Proof.Machine.execRsvdBit13 w s
  | .rsvdBit14 w => Sys2Proof.Machine.execRsvdBit14 w s
  | .rsvdBit15 w => Sys2Proof.Machine.execRsvdBit15 w s
  | .rsvdBit16 w => Sys2Proof.Machine.execRsvdBit16 w s
  | .rsvdBit17 w => Sys2Proof.Machine.execRsvdBit17 w s
  | .rsvdBit18 w => Sys2Proof.Machine.execRsvdBit18 w s
  | .rsvdBit19 w => Sys2Proof.Machine.execRsvdBit19 w s
  | .rsvdBit20 w => Sys2Proof.Machine.execRsvdBit20 w s
  | .rsvdBit21 w => Sys2Proof.Machine.execRsvdBit21 w s
  | .rsvdBit22 w => Sys2Proof.Machine.execRsvdBit22 w s
  | .rsvdBit23 w => Sys2Proof.Machine.execRsvdBit23 w s
  | .rsvdBit24 w => Sys2Proof.Machine.execRsvdBit24 w s
  | .rsvdBit25 w => Sys2Proof.Machine.execRsvdBit25 w s
  | .rsvdBit26 w => Sys2Proof.Machine.execRsvdBit26 w s
  | .rsvdBit27 w => Sys2Proof.Machine.execRsvdBit27 w s
  | .rsvdBit28 w => Sys2Proof.Machine.execRsvdBit28 w s
  | .rsvdBit29 w => Sys2Proof.Machine.execRsvdBit29 w s
  | .rsvdBit30 w => Sys2Proof.Machine.execRsvdBit30 w s
  | .rsvdBit31 w => Sys2Proof.Machine.execRsvdBit31 w s

end Sys2Proof.Machine
end

