-- ==== Sys2Proof/Machine/Step.lean ====
section
/-! DEFINITION. One step of the block (00_scope.md R15): the completion of the running command, or one host event. -/

namespace Sys2Proof.Machine

/-- One step: the engine's (R205) or the host's, as the state says (R206). -/
def step (s : State) : Host.Outcome State Fault Refusal :=
  if s.engineMoves then exec s.command s else hostTurn s

/-- The block fetches nothing (10_state.md R32): the word is put where the engine takes its command from, as acceptance
puts it (R200), and the next step runs it (log 11). -/
def State.withFetchWord (s : State) (nbits w : Nat) : State := submitWord nbits w s

end Sys2Proof.Machine
end

