-- ==== Sys2Proof/Machine/Script.lean ====
section
/-! DEFINITION. The straight-line pseudo-commands of the host-script syntax as host events (30_encoding.md R170 to R172).
`IF`, `GOTO` and the loop of WAIT are "host behaviour, not block behaviour" (R171) and are not part of the block's
model (NOTES.md, Scope). -/

namespace Sys2Proof.Machine

/-- The bus address of a register, of an IBUF element, of a FREQ word (R33, R109). -/
def regAddr (base : Word) (r : Reg) : Word := base + BitVec.ofNat 32 r.offset

def ibufAddr (base : Word) (i : Nat) : Word := base + BitVec.ofNat 32 (Win.ibuf.base + 4 * i)

def freqAddr (base : Word) (i w : Nat) : Word := base + BitVec.ofNat 32 (Win.freq.base + 8 * i + 4 * w)

/-- `CMD <mnemonic>` (R170, R172). -/
def scriptCmd (base : Word) (i : Instr) : List HostEvent := [.write (regAddr base .cmd) (encode i)]

/-- One poll of `WAIT` (R172). -/
def scriptPoll (base : Word) : List HostEvent := [.read (regAddr base .status)]

/-- `ACK` (R172). -/
def scriptAck (base : Word) : List HostEvent := [.write (regAddr base .status) 0x0000000E]

/-- `LOADTEXT` and `LOADBYTES` (R172): the elements in order, then IN_LEN. -/
def scriptLoad (base : Word) (ws : List Word) : List HostEvent :=
  ws.zipIdx.map (fun p => .write (ibufAddr base p.2) p.1) ++
    [.write (regAddr base .inLen) (BitVec.ofNat 32 ws.length)]

/-- `LOADFREQ` (R172). -/
def scriptLoadFreq (base : Word) (es : List FreqEntry) : List HostEvent :=
  es.zipIdx.flatMap (fun p =>
      [.write (freqAddr base p.2 0) p.1.sym, .write (freqAddr base p.2 1) p.1.count]) ++
    [.write (regAddr base .freqN) (BitVec.ofNat 32 es.length)]

end Sys2Proof.Machine
end

