-- ==== Sys2Proof/Safety.lean ====
section
/-! DEFINITION. What a sound state is (10_state.md R49): the invariants in which claims about every state are stated. -/

namespace Sys2Proof.Machine

/-- The indices of the nodes reached from `i`, in preorder, each as often as it is reached. -/
def reachedNodes (m : Memory) : Nat → Nat → List Nat
  | 0, _ => []
  | fuel + 1, i =>
    if nodeKind m i = 2 then [i]
    else i :: (reachedNodes m fuel (nodeA m i).toNat ++ reachedNodes m fuel (nodeB m i).toNat)

/-- Every window in canonical form, its cells within the mapped bytes. -/
def State.MemoryOk (s : State) : Prop :=
  ∀ w : Win, (s.win w).wf ∧ ∀ c ∈ (s.win w).cells, c.1 < w.size s.cfg

/-- "Entries 0 .. NODE_N-1 of the node memory form one tree reachable from ROOT in which every Internal node has two
children and every entry is reached exactly once, and every entry at index >= NODE_N has KIND = EMPTY" (R49), the EMPTY
entries having all eight words 0 (R64). -/
def State.TreeOk (s : State) : Prop :=
  1 ≤ s.nodeN.toNat ∧ s.nodeN.toNat ≤ s.cfg.nodeCap ∧ s.root.toNat < s.nodeN.toNat ∧
  s.tree.isSome = true ∧
  (reachedNodes s.node s.cfg.nodeCap s.root.toNat).Perm (List.range s.nodeN.toNat) ∧
  (∀ i < s.nodeN.toNat, nodeKind s.node i = 1 ∨ nodeKind s.node i = 2) ∧
  (∀ o < 8 * (s.cfg.nodeCap - s.nodeN.toNat), s.node.readWord (32 * s.nodeN.toNat + 4 * o) = 0)

/-- "CODE_N is the number of leaves of the tree, entries 0 .. CODE_N-1 of CODE hold the code of each leaf in ascending
order of character, and entries at index >= CODE_N are zero" (R49). -/
def State.CodesOk (s : State) : Prop :=
  s.treeValid = true ∧
  (∃ t cs, s.tree = some t ∧ codeTable s.cfg.lMax t = .ok cs ∧ s.codeN.toNat = t.leaves ∧
    codeEntries s.code s.codeN.toNat = cs) ∧
  (∀ o < 4 * (s.cfg.nSym - s.codeN.toNat), s.code.readWord (16 * s.codeN.toNat + 4 * o) = 0)

/-- The flags and the registers that follow them (R49, the first and third invariants). -/
def State.FlagsOk (s : State) : Prop :=
  (s.treeValid = false → s.nodeN = 0 ∧ s.root = NIL) ∧ (s.codesValid = false → s.codeN = 0)

/-- The invariants of R49, over an instance within the parameter bounds of R8 to R11. A command is one step, so they hold
while BUSY = 1 as well. -/
def State.Sound (s : State) : Prop :=
  s.cfg.wf ∧ s.MemoryOk ∧ s.FlagsOk ∧ (s.treeValid = true → s.TreeOk) ∧ (s.codesValid = true → s.CodesOk)

/-! ### The terms of the claims -/

/-- The text (or the stream) in IBUF. -/
def State.text (s : State) : List Word := ibufWords s.ibuf s.inLen.toNat

/-- `t` is completed with the error of this code and context (60_exceptions.md R415). -/
def State.FailedWith (t : State) (code : BitVec 8) (a0 a1 a2 : Word) : Prop :=
  t.busy = false ∧ t.done = true ∧ t.err = true ∧ t.errCode = code ∧ t.errArg0 = a0 ∧ t.errArg1 = a1 ∧ t.errArg2 = a2

/-- COUNT meets none of its errors (41_frequency_counter.md R240). -/
def State.Countable (s : State) : Prop :=
  s.inLen.toNat ≤ s.cfg.inCap ∧ (∀ c ∈ s.text, validCodePoint c = true) ∧ s.text.dedup.length ≤ s.cfg.nSym

/-- FREQ is in the form BUILD requires (42_tree_builder.md R260, R261). -/
def State.FreqOk (s : State) : Prop :=
  1 ≤ s.freqN.toNat ∧ s.freqN.toNat ≤ s.cfg.nSym ∧
  (∀ i < s.freqN.toNat, validCodePoint (freqEntry s.freq i).sym = true) ∧
  (∀ i, i + 1 < s.freqN.toNat → (freqEntry s.freq i).sym.toNat < (freqEntry s.freq (i + 1)).sym.toNat)

/-- The tree BUILD makes of a frequency mapping, as a later command reads it. -/
def builtTree (nodeCap : Nat) (tab : List FreqEntry) : Option Tree :=
  readTree (Memory.ofWords ((buildNodes tab).1.flatMap Node.words)) nodeCap (buildNodes tab).2

/-- The key order of 42_tree_builder.md R263 on entries of the node memory. -/
def nodeKeyLt (m : Memory) (i j : Nat) : Prop :=
  (nodeWeight m i).toNat < (nodeWeight m j).toNat ∨ (nodeWeight m i = nodeWeight m j ∧ i < j)

/-- Node `j` is in the priority queue when node `k` is created (R264): it is older than `k`, and no Internal node from
`n` up to `k` has it as a child. -/
def inQueueAt (m : Memory) (n k j : Nat) : Prop :=
  j < k ∧ ∀ i, n ≤ i → i < k → (nodeA m i).toNat ≠ j ∧ (nodeB m i).toNat ≠ j

/-- The character at the end of a path from the root, `true` for a step to the right (43_code_table.md R291). -/
def Tree.follow : Tree → List Bool → Option Word
  | .leaf c, [] => some c
  | .leaf _, _ :: _ => none
  | .node _ _, [] => none
  | .node l r, b :: bs => if b then r.follow bs else l.follow bs

/-- The character whose code is `bs` (R291; R292 for the single character). -/
def Tree.wordOf : Tree → List Bool → Option Word
  | .leaf c, bs => if bs = [false] then some c else none
  | .node l r, bs => (Tree.node l r).follow bs

/-- The characters of the leaves, in preorder. -/
def Tree.syms : Tree → List Word
  | .leaf c => [c]
  | .node l r => l.syms ++ r.syms

/-- The elements `0 .. n-1` of a buffer begin, as a stream, with the tree region of `t`: every character valid, and the
tree within the node memory (30_encoding.md R151, R158). -/
def TreeRegionOf (c : Config) (m : Memory) (n : Nat) (t : Tree) : Prop :=
  (∀ x ∈ t.syms, validCodePoint x = true) ∧ 2 * t.leaves - 1 ≤ c.nodeCap ∧ t.bits.length ≤ 8 * n ∧
  (List.range t.bits.length).map (streamBit m) = t.bits

/-- The bits of one node of the tree region: `none` for an Internal node, its character for a Leaf (R151). -/
def nodeBits : Option Word → List Bool
  | none => [false]
  | some c => true :: wordBits c

/-- How many child slots (the root's own place counted as one) are empty after these nodes, from `n` empty slots on: an
Internal node fills one and opens two, a Leaf fills one (45_decoder.md R353, R354). With none left the tree is complete. -/
def emptySlots : Nat → List (Option Word) → Nat
  | n, [] => n
  | 0, _ :: _ => 0
  | n + 1, none :: xs => emptySlots (n + 2) xs
  | n + 1, some _ :: xs => emptySlots n xs

/-- The elements `0 .. n-1` of a buffer begin, as a stream, with the nodes `xs`: valid, within the node memory, and not yet
a whole tree. Phase 1 of DECODE (45_decoder.md R350) reads its next node behind them. -/
def TreeBeginsWith (c : Config) (m : Memory) (n : Nat) (xs : List (Option Word)) : Prop :=
  0 < emptySlots 1 xs ∧ (∀ x, some x ∈ xs → validCodePoint x = true) ∧ xs.length ≤ c.nodeCap ∧
  (xs.flatMap nodeBits).length ≤ 8 * n ∧
  (List.range (xs.flatMap nodeBits).length).map (streamBit m) = xs.flatMap nodeBits

/-- The stop position `8N - 10 + low3` (R156). -/
def stopOf (m : Memory) (n : Nat) : Nat := 8 * n - 10 + (ibufWord m (n - 1)).toNat % 8

/-- The payload bits of the stream, from `T` up to the stop position. -/
def payloadOf (m : Memory) (n : Nat) (t : Tree) : List Bool :=
  (List.range (stopOf m n - t.bits.length)).map (fun k => streamBit m (t.bits.length + k))

/-- The payload bits `bs` split into whole codes of `t`, for the characters `text` (R153, R158). -/
def SpellsText (t : Tree) (bs : List Bool) (text : List Word) : Prop :=
  ∃ codes : List (List Bool), codes.flatten = bs ∧ codes.map t.wordOf = text.map some

/-- The elements `0 .. n-1` of a buffer are a well-formed stream of the tree `t` and the text `text` (R158). -/
def WellFormedStream (c : Config) (m : Memory) (n : Nat) (t : Tree) (text : List Word) : Prop :=
  TreeRegionOf c m n t ∧ t.bits.length + 3 ≤ 8 * n ∧ t.bits.length ≤ stopOf m n ∧
  SpellsText t (payloadOf m n t) text ∧ text.length ≤ c.outCap

/-- The code bits of a character in a code table. -/
def codeBitsOf (codes : List CodeEntry) (c : Word) : List Bool :=
  ((codes.find? (fun e => e.sym = c)).map CodeEntry.bits).getD []

/-- The length in bytes of a stream whose payload ends at bit `stop` (R155). -/
def streamBytes (stop : Nat) : Nat := if stop % 8 < 6 then stop / 8 + 1 else stop / 8 + 2

/-- The state of a next outcome changed by `f`. -/
def mapNext (f : State → State) : Host.Outcome State Fault Refusal → Host.Outcome State Fault Refusal
  | .next t => .next (f t)
  | .fault r => .fault r
  | .refused r => .refused r

/-- The next command if the one before completed without error; else ENCODE's error effects (44_encoder.md R320). -/
def thenCommand (o : Host.Outcome State Fault Refusal) (f : State → Host.Outcome State Fault Refusal) :
    Host.Outcome State Fault Refusal :=
  match o with
  | .next t => if t.err then .next (outputFailed t) else f t
  | .fault r => .fault r
  | .refused r => .refused r

/-- A host transaction the bus can carry, and no reset. -/
def HostEvent.plain : HostEvent → Bool
  | .read a => wordAligned a
  | .write a _ => wordAligned a
  | .reset => false

end Sys2Proof.Machine
end

