-- ==== Sys2Proof/Certificates/Slice0/Obligations.lean ====
section
/-! DEFINITION. The statements about the model, from the spec's numbered rules. -/

open Sys2Proof Sys2Proof.Machine

/-! ### Encoding -/

/-- 30_encoding.md R142: each of the eight legal words, and no other, selects its command; 0x8 to 0xF are reserved. -/
def Obligations.OpcodeMapSelectsCommands : Prop :=
  (∀ w : Word,
    (decode w = .nop ↔ w = 0x00000000) ∧ (decode w = .clear ↔ w = 0x00000001) ∧
    (decode w = .count ↔ w = 0x00000002) ∧ (decode w = .build ↔ w = 0x00000003) ∧
    (decode w = .gencodes ↔ w = 0x00000004) ∧ (decode w = .serialize ↔ w = 0x00000005) ∧
    (decode w = .encode ↔ w = 0x00000006) ∧ (decode w = .decode ↔ w = 0x00000007)) ∧
  (∀ op : BitVec 4, 8 ≤ op.toNat → decode (op.setWidth 32) = .reservedOp op)

/-- The words written out from the table's rows decode to them (a sanity check): R142, R143, R144. -/
def Obligations.TableWordsDecodeToTheirRows : Prop :=
  decode 0x00000002 = .count ∧ decode 0x00000007 = .decode ∧ decode 0x00000008 = .reservedOp 8 ∧
  decode 0x0000000F = .reservedOp 15 ∧ decode 0x00000012 = .rsvdBit4 0x00000012 ∧
  decode 0x00010000 = .rsvdBit16 0x00010000 ∧ decode 0x80000005 = .rsvdBit31 0x80000005 ∧
  decodeTableWord 32 0x00000040 = some (.rsvdBit6 0x00000040) ∧ decodeTableWord 33 0x100000000 = none

/-- 30_encoding.md R144 (with R143 for how an illegal word completes): a word is legal exactly when it is at most 7;
any other word, whatever its OP, completes with ILLEGAL_COMMAND and the word as context, and changes nothing else. -/
def Obligations.ExactlyEightWordsAreLegal : Prop :=
  ∀ w : Word, ((decode w).illegal = false ↔ w.toNat ≤ 7) ∧
    (7 < w.toNat → ∀ s : State, exec (decode w) s = .next { s with
      busy := false, done := true, err := true, errCode := 5, errArg0 := w, errArg1 := 0, errArg2 := 0 })

/-- Decoding the word of a well-formed instruction gives it back, with every word it can carry. -/
def Obligations.DecodeInvertsEncode : Prop :=
  ∀ i : Instr, i.wellFormed = true → decode (encode i) = i

/-- Every 32-bit word is the word of the one well-formed instruction it decodes to. -/
def Obligations.EncodeInvertsDecode : Prop :=
  ∀ w : Word, encode (decode w) = w ∧ (decode w).wellFormed = true

/-! ### Which agent moves -/

/-- 40_command_lifecycle.md R201, R205: the engine's step is the meaning of the accepted word's command, with nothing
added; and the fetch word of the host's test is the accepted word. -/
def Obligations.StepRunsTheAcceptedCommand : Prop :=
  (∀ s : State, s.busy = true → (s.pending = [] ∨ s.busyTurns = 0) → step s = exec (decode s.lastCmd) s) ∧
  (∀ (s : State) (w : Word),
    step (s.withFetchWord 32 w.toNat) = exec (decode w) (s.withFetchWord 32 w.toNat) ∧
    (s.withFetchWord 32 w.toNat).lastCmd = w)

/-- The MODEL's host turn (logs 3, 6 and 12): otherwise the next pending host event is performed, and an idle block with
no host event waits. -/
def Obligations.OtherwiseTheHostMoves : Prop :=
  (∀ (s : State) (e : HostEvent) (q : List HostEvent), s.pending = e :: q → (s.busy = false ∨ s.busyTurns ≠ 0) →
    step s = hostEvent e { s with pending := q, busyTurns := s.busyTurns - 1 }) ∧
  (∀ s : State, s.pending = [] → s.busy = false → step s = .next s)

/-- 40_command_lifecycle.md R200: acceptance. `busyTurns` and `draws` are the model's own fields (log 3). -/
def Obligations.CmdWriteWhileIdleIsAccepted : Prop :=
  ∀ (s : State) (w : Word), s.busy = false →
    ∃ n k, hostWrite (regAddr s.cfg.base .cmd) w s = { s with
      lastCmd := w, busy := true, done := false, err := false,
      errCode := 0, errArg0 := 0, errArg1 := 0, errArg2 := 0, busyTurns := n, draws := k }

/-- 40_command_lifecycle.md R203. -/
def Obligations.CmdWriteWhileBusyIsLost : Prop :=
  ∀ (s : State) (w : Word), s.busy = true →
    hostWrite (regAddr s.cfg.base .cmd) w s = { s with haz := true }

/-- 40_command_lifecycle.md R210: the busy-access rule, and that a command's result does not depend on hazards. -/
def Obligations.BusyAccessRule : Prop :=
  (∀ (s : State) (a v : Word) (r : Reg), s.busy = true → s.locate a = .reg r →
    r ∈ [Reg.id, .version, .cfgNsym, .cfgIncap, .cfgOutcap, .cfgLmax, .ctrl, .status] →
    hostRead a s = (s.readReg r, s) ∧ hostWrite a v s = writeReg r v s) ∧
  (∀ (s : State) (a : Word), s.busy = true → s.locate a = .reg .cmd → hostRead a s = (s.lastCmd, s)) ∧
  (∀ (s : State) (a v : Word), s.busy = true →
    (∀ r ∈ [Reg.id, .version, .cfgNsym, .cfgIncap, .cfgOutcap, .cfgLmax, .ctrl, .status], s.locate a ≠ .reg r) →
    (s.locate a ≠ .reg .cmd → hostRead a s = (0, { s with haz := true })) ∧
    hostWrite a v s = { s with haz := true }) ∧
  (∀ (i : Instr) (s : State),
    exec i { s with haz := true } = mapNext (fun t => { t with haz := true }) (exec i s))

/-- 40_command_lifecycle.md R211: while idle no access is a hazard, and HAZ changes only by a W1C write. -/
def Obligations.IdleAccessIsNoHazard : Prop :=
  ∀ (s : State) (a v : Word), s.busy = false →
    (hostRead a s).2 = s ∧
    ((hostWrite a v s).haz = true ↔ s.haz = true ∧ ¬(s.locate a = .reg .status ∧ v.getLsbD 3 = true))

/-! ### The address map and the access types -/

/-- 10_state.md R33, 20_memory.md R109: where the registers and the windows lie. -/
def Obligations.AddressMapPlacesRegistersAndWindows : Prop :=
  ∀ c : Config, c.wf →
    (locate c 0x00 = .reg .id ∧ locate c 0x04 = .reg .version ∧ locate c 0x08 = .reg .cfgNsym ∧
     locate c 0x0C = .reg .cfgIncap ∧ locate c 0x10 = .reg .cfgOutcap ∧ locate c 0x14 = .reg .cfgLmax ∧
     locate c 0x20 = .reg .ctrl ∧ locate c 0x24 = .reg .cmd ∧ locate c 0x28 = .reg .status ∧
     locate c 0x2C = .reg .errCode ∧ locate c 0x30 = .reg .errArg0 ∧ locate c 0x34 = .reg .errArg1 ∧
     locate c 0x38 = .reg .errArg2 ∧ locate c 0x40 = .reg .inLen ∧ locate c 0x44 = .reg .outLen ∧
     locate c 0x48 = .reg .freqN ∧ locate c 0x4C = .reg .nodeN ∧ locate c 0x50 = .reg .root ∧
     locate c 0x54 = .reg .codeN ∧ locate c 0x58 = .reg .treeBits ∧ locate c 0x5C = .reg .payloadBits ∧
     locate c 0x60 = .reg .stopPos) ∧
    (∀ i < c.inCap, locate c (0x01000000 + 4 * i) = .window .ibuf (4 * i)) ∧
    (∀ i < c.outCap, locate c (0x02000000 + 4 * i) = .window .obuf (4 * i)) ∧
    (∀ i < c.nSym, ∀ w < 2, locate c (0x03000000 + 8 * i + 4 * w) = .window .freq (8 * i + 4 * w)) ∧
    (∀ i < c.nodeCap, ∀ w < 8, locate c (0x04000000 + 32 * i + 4 * w) = .window .node (32 * i + 4 * w)) ∧
    (∀ i < c.nSym, ∀ w < 4, locate c (0x05000000 + 16 * i + 4 * w) = .window .code (16 * i + 4 * w))

/-- What a host reads: 10_state.md R31, R34, R36 (in every state) and R40, R41, R43 to R48 (while idle) for the registers,
R50, R51, R60, R64, R70 (while idle) for the words of the windows. No read changes the state here (20_memory.md R105). -/
def Obligations.HostReadsGiveTheNamedState : Prop :=
  (∀ s : State,
    hostRead (regAddr s.cfg.base .id) s = (0x48554646, s) ∧ hostRead (regAddr s.cfg.base .version) s = (1, s) ∧
    hostRead (regAddr s.cfg.base .cfgNsym) s = (BitVec.ofNat 32 s.cfg.nSym, s) ∧
    hostRead (regAddr s.cfg.base .cfgIncap) s = (BitVec.ofNat 32 s.cfg.inCap, s) ∧
    hostRead (regAddr s.cfg.base .cfgOutcap) s = (BitVec.ofNat 32 s.cfg.outCap, s) ∧
    hostRead (regAddr s.cfg.base .cfgLmax) s = (BitVec.ofNat 32 s.cfg.lMax, s) ∧
    hostRead (regAddr s.cfg.base .ctrl) s = (if s.irqEn then 1 else 0, s) ∧
    hostRead (regAddr s.cfg.base .cmd) s = (s.lastCmd, s) ∧
    hostRead (regAddr s.cfg.base .status) s = (s.status, s)) ∧
  (∀ s : State, s.busy = false →
    hostRead (regAddr s.cfg.base .errCode) s = (s.errCode.setWidth 32, s) ∧
    hostRead (regAddr s.cfg.base .errArg0) s = (s.errArg0, s) ∧
    hostRead (regAddr s.cfg.base .errArg1) s = (s.errArg1, s) ∧
    hostRead (regAddr s.cfg.base .errArg2) s = (s.errArg2, s) ∧
    hostRead (regAddr s.cfg.base .inLen) s = (s.inLen, s) ∧ hostRead (regAddr s.cfg.base .outLen) s = (s.outLen, s) ∧
    hostRead (regAddr s.cfg.base .freqN) s = (s.freqN, s) ∧ hostRead (regAddr s.cfg.base .nodeN) s = (s.nodeN, s) ∧
    hostRead (regAddr s.cfg.base .root) s = (s.root, s) ∧ hostRead (regAddr s.cfg.base .codeN) s = (s.codeN, s) ∧
    hostRead (regAddr s.cfg.base .treeBits) s = (s.treeBits, s) ∧
    hostRead (regAddr s.cfg.base .payloadBits) s = (s.payloadBits, s) ∧
    hostRead (regAddr s.cfg.base .stopPos) s = (s.stopPos, s)) ∧
  (∀ (s : State) (i : Nat), s.cfg.wf → s.busy = false →
    (i < s.cfg.inCap → hostRead (s.cfg.base + BitVec.ofNat 32 (0x01000000 + 4 * i)) s = (ibufWord s.ibuf i, s)) ∧
    (i < s.cfg.outCap → hostRead (s.cfg.base + BitVec.ofNat 32 (0x02000000 + 4 * i)) s = (ibufWord s.obuf i, s)) ∧
    (i < s.cfg.nSym →
      hostRead (s.cfg.base + BitVec.ofNat 32 (0x03000000 + 8 * i)) s = ((freqEntry s.freq i).sym, s) ∧
      hostRead (s.cfg.base + BitVec.ofNat 32 (0x03000004 + 8 * i)) s = ((freqEntry s.freq i).count, s)) ∧
    (i < s.cfg.nodeCap →
      (hostRead (s.cfg.base + BitVec.ofNat 32 (0x04000000 + 32 * i)) s).1.extractLsb' 0 2 = nodeKind s.node i ∧
      hostRead (s.cfg.base + BitVec.ofNat 32 (0x04000004 + 32 * i)) s = (nodeA s.node i, s) ∧
      hostRead (s.cfg.base + BitVec.ofNat 32 (0x04000008 + 32 * i)) s = (nodeB s.node i, s) ∧
      hostRead (s.cfg.base + BitVec.ofNat 32 (0x04000010 + 32 * i)) s = ((nodeWeight s.node i).extractLsb' 0 32, s) ∧
      hostRead (s.cfg.base + BitVec.ofNat 32 (0x04000014 + 32 * i)) s = ((nodeWeight s.node i).extractLsb' 32 32, s) ∧
      (∀ w < 8, hostRead (s.cfg.base + BitVec.ofNat 32 (0x04000000 + 32 * i + 4 * w)) s =
        (s.node.readWord (32 * i + 4 * w), s))) ∧
    (i < s.cfg.nSym →
      hostRead (s.cfg.base + BitVec.ofNat 32 (0x05000000 + 16 * i)) s = ((codeEntry s.code i).sym, s) ∧
      hostRead (s.cfg.base + BitVec.ofNat 32 (0x05000004 + 16 * i)) s = ((codeEntry s.code i).len, s) ∧
      hostRead (s.cfg.base + BitVec.ofNat 32 (0x05000008 + 16 * i)) s =
        ((codeEntry s.code i).val.extractLsb' 0 32, s) ∧
      hostRead (s.cfg.base + BitVec.ofNat 32 (0x0500000C + 16 * i)) s =
        ((codeEntry s.code i).val.extractLsb' 32 32, s)))

/-- 20_memory.md R106: what is unmapped, that it reads 0 and ignores a write, and is a hazard while busy. -/
def Obligations.UnmappedReadsZeroAndIgnoresWrites : Prop :=
  (∀ (c : Config) (o : Nat), locate c o = .unmapped ↔
    (∀ r : Reg, o ≠ r.offset) ∧
    ¬(0x01000000 ≤ o ∧ o < 0x01000000 + 4 * c.inCap) ∧ ¬(0x02000000 ≤ o ∧ o < 0x02000000 + 4 * c.outCap) ∧
    ¬(0x03000000 ≤ o ∧ o < 0x03000000 + 8 * c.nSym) ∧
    ¬(0x04000000 ≤ o ∧ o < 0x04000000 + 32 * (2 * c.nSym - 1)) ∧
    ¬(0x05000000 ≤ o ∧ o < 0x05000000 + 16 * c.nSym)) ∧
  (∀ (s : State) (a v : Word), s.locate a = .unmapped →
    (hostRead a s).1 = 0 ∧
    (s.busy = false → (hostRead a s).2 = s ∧ hostWrite a v s = s) ∧
    (s.busy = true → (hostRead a s).2 = { s with haz := true } ∧ hostWrite a v s = { s with haz := true }))

/-- 20_memory.md R107: writes to read-only registers and windows are ignored (but for HAZ) and, while idle, no hazard;
reserved bits read 0 and ignore writes. -/
def Obligations.ReadOnlyWritesAreIgnored : Prop :=
  (∀ (s : State) (a v : Word) (r : Reg), s.locate a = .reg r →
    r ∈ [Reg.id, .version, .cfgNsym, .cfgIncap, .cfgOutcap, .cfgLmax, .errCode, .errArg0, .errArg1, .errArg2,
      .outLen, .nodeN, .root, .codeN, .treeBits, .payloadBits, .stopPos] →
    { hostWrite a v s with haz := s.haz } = s ∧ (s.busy = false → hostWrite a v s = s)) ∧
  (∀ (s : State) (a v : Word) (w : Win) (o : Nat), s.locate a = .window w o → w ∈ [Win.obuf, .node, .code] →
    { hostWrite a v s with haz := s.haz } = s ∧ (s.busy = false → hostWrite a v s = s)) ∧
  (∀ (s : State) (v : Word),
    s.ctrl.toNat < 2 ∧ s.status.toNat < 64 ∧ (s.readReg .errCode).toNat < 256 ∧
    writeReg .ctrl v s = writeReg .ctrl (v &&& 0x1) s ∧ writeReg .status v s = writeReg .status (v &&& 0xE) s)

/-- 20_memory.md R103: a byte address that is not a multiple of 4 is refused. -/
def Obligations.MisalignedAddressIsRefused : Prop :=
  ∀ (s : State) (a v : Word), a.toNat % 4 ≠ 0 →
    hostEvent (.read a) s = .refused (.misalignedAddress a) ∧
    hostEvent (.write a v) s = .refused (.misalignedAddress a)

/-- A transaction's response (00_scope.md R14, R15): the data of a read, 0 for a write. -/
def Obligations.EveryTransactionIsAnswered : Prop :=
  ∀ (s : State) (a v : Word), a.toNat % 4 = 0 →
    hostEvent (.read a) s = .next { (hostRead a s).2 with rsp := some (hostRead a s).1 } ∧
    hostEvent (.write a v) s = .next { hostWrite a v s with rsp := some 0 }

/-- 10_state.md R39: STATUS as a host reads it, masked while BUSY = 1. -/
def Obligations.StatusReadsMaskedWhileBusy : Prop :=
  ∀ s : State, hostRead (regAddr s.cfg.base .status) s = (s.status, s) ∧
    (s.busy = true → s.status = (if s.haz then 0x9 else 0x1)) ∧
    (s.busy = false →
      s.status.getLsbD 0 = false ∧ s.status.getLsbD 1 = s.done ∧ s.status.getLsbD 2 = s.err ∧
      s.status.getLsbD 3 = s.haz ∧ s.status.getLsbD 4 = s.treeValid ∧ s.status.getLsbD 5 = s.codesValid) ∧
    (∀ i, 6 ≤ i → s.status.getLsbD i = false)

/-- 10_state.md R38 at transaction level: what a write to STATUS clears, busy or not. -/
def Obligations.StatusWriteClearsOnes : Prop :=
  ∀ (s : State) (v : Word), hostWrite (regAddr s.cfg.base .status) v s = { s with
    done := if v.getLsbD 1 then false else s.done
    err := if v.getLsbD 2 then false else s.err
    haz := if v.getLsbD 3 then false else s.haz }

/-- 60_exceptions.md R420: the level of `irq`, when it rises and when it falls. -/
def Obligations.IrqFollowsDoneAndEnable : Prop :=
  (∀ s : State, s.irq = (s.irqEn && s.done)) ∧
  (∀ (i : Instr) (s t : State), exec i s = .next t → t.irq = s.irqEn) ∧
  (∀ (s : State) (v : Word),
    (v.getLsbD 1 = true → (hostWrite (regAddr s.cfg.base .status) v s).irq = false) ∧
    (v.getLsbD 0 = false → (hostWrite (regAddr s.cfg.base .ctrl) v s).irq = false) ∧
    (v.getLsbD 0 = true → s.done = true → (hostWrite (regAddr s.cfg.base .ctrl) v s).irq = true) ∧
    (s.busy = false → (hostWrite (regAddr s.cfg.base .cmd) v s).irq = false) ∧
    (resetStep s).irq = false)

/-- 10_state.md R50 and R61: an IBUF or FREQ word written while idle reads back, every other word of every window is as
before, and nothing else changes. -/
def Obligations.WrittenWindowWordsReadBack : Prop :=
  ∀ (s : State) (a v : Word) (w : Win) (o : Nat), s.busy = false → s.locate a = .window w o →
    w ∈ [Win.ibuf, .freq] →
    (hostRead a (hostWrite a v s)).1 = v ∧
    hostWrite a v s = { s with ibuf := (hostWrite a v s).ibuf, freq := (hostWrite a v s).freq } ∧
    (∀ (w' : Win) (b : Nat), (w' ≠ w ∨ b < o ∨ o + 4 ≤ b) →
      ((hostWrite a v s).win w').readByte b = (s.win w').readByte b)

/-- 10_state.md R35, R42 and R44: CTRL bit 0, IN_LEN and FREQ_N take any written value, and nothing else changes. -/
def Obligations.WrittenRegistersReadBack : Prop :=
  ∀ (s : State) (v : Word), s.busy = false →
    hostWrite (regAddr s.cfg.base .inLen) v s = { s with inLen := v } ∧
    hostRead (regAddr s.cfg.base .inLen) { s with inLen := v } = (v, { s with inLen := v }) ∧
    hostWrite (regAddr s.cfg.base .freqN) v s = { s with freqN := v } ∧
    hostRead (regAddr s.cfg.base .freqN) { s with freqN := v } = (v, { s with freqN := v }) ∧
    hostWrite (regAddr s.cfg.base .ctrl) v s = { s with irqEn := v.getLsbD 0 } ∧
    (hostRead (regAddr s.cfg.base .ctrl) (hostWrite (regAddr s.cfg.base .ctrl) v s)).1 = v &&& 1

/-! ### Reset -/

/-- 10_state.md R90: the state after reset. Nothing is said of the windows' contents: each word holds any value. -/
def Obligations.ResetGivesTheResetValues : Prop :=
  ∀ s : State, hostEvent .reset s = .next (resetStep s) ∧
    (resetStep s).cfg = s.cfg ∧ (resetStep s).readReg .id = 0x48554646 ∧ (resetStep s).readReg .version = 1 ∧
    (resetStep s).readReg .cfgNsym = BitVec.ofNat 32 s.cfg.nSym ∧
    (resetStep s).readReg .cfgIncap = BitVec.ofNat 32 s.cfg.inCap ∧
    (resetStep s).readReg .cfgOutcap = BitVec.ofNat 32 s.cfg.outCap ∧
    (resetStep s).readReg .cfgLmax = BitVec.ofNat 32 s.cfg.lMax ∧
    (resetStep s).ctrl = 0 ∧ (resetStep s).lastCmd = 0 ∧ (resetStep s).status = 0 ∧ (resetStep s).busy = false ∧
    (resetStep s).errCode = 0 ∧ (resetStep s).errArg0 = 0 ∧ (resetStep s).errArg1 = 0 ∧
    (resetStep s).errArg2 = 0 ∧ (resetStep s).inLen = 0 ∧ (resetStep s).outLen = 0 ∧ (resetStep s).freqN = 0 ∧
    (resetStep s).nodeN = 0 ∧ (resetStep s).codeN = 0 ∧ (resetStep s).root = 0xFFFFFFFF ∧
    (resetStep s).treeBits = 0 ∧ (resetStep s).payloadBits = 0 ∧ (resetStep s).stopPos = 0 ∧
    (resetStep s).irq = false

/-- 70_reset_and_hazards.md R452: a reset during a command leaves nothing of it; what stays are the parameters, the host
events still to come and the number of draws, and every window holds the free values of a fresh draw, the model's form of
an unspecified content (logs 2 and 6). -/
def Obligations.ResetAbandonsARunningCommand : Prop :=
  (∀ s s' : State, s.cfg = s'.cfg → s.pending = s'.pending → s.draws = s'.draws → resetStep s = resetStep s') ∧
  (∀ s : State, (resetStep s).busy = false ∧ (resetStep s).done = false ∧ (resetStep s).irq = false ∧
    (resetStep s).rsp = none ∧ ∀ w : Win, ∃ k, s.draws ≤ k ∧ (resetStep s).win w = ⟨.unspecified k, []⟩)

/-- 70_reset_and_hazards.md R451: the state after reset satisfies the invariants of R49, and the block is idle. -/
def Obligations.ResetStateIsSound : Prop :=
  (∀ s : State, s.cfg.wf → (resetStep s).Sound ∧ (resetStep s).busy = false) ∧ State.reset.Sound

/-! ### NOP, CLEAR and the illegal words -/

/-- 40_command_lifecycle.md R220: NOP completes with no effect. -/
def Obligations.NopCompletesWithNoEffect : Prop :=
  ∀ s : State, exec .nop s = .next { s with busy := false, done := true }

/-- 40_command_lifecycle.md R222: what CLEAR writes; everything else, the contents of all windows too, is as before. -/
def Obligations.ClearReturnsWorkingStateToReset : Prop :=
  ∀ s : State, exec .clear s = .next { s with
    busy := false, done := true, freqN := 0, nodeN := 0, root := NIL, codeN := 0, treeValid := false,
    codesValid := false, outLen := 0, treeBits := 0, payloadBits := 0, stopPos := 0 }

/-- 60_exceptions.md R405, 30_encoding.md R143, for the 29 illegal rows reservedOp and rsvdBit4 to rsvdBit31: the command
completes with ILLEGAL_COMMAND and its word, changing no other state; an idle block that is sent an illegal word accepts
it, and its execution from there ends so. `busyTurns` and `draws` are the model's own fields, left free. -/
def Obligations.IllegalWordsCompleteWithIllegalCommand : Prop :=
  (∀ (i : Instr) (s : State), i.illegal = true → exec i s = .next { s with
    busy := false, done := true, err := true, errCode := 5, errArg0 := encode i, errArg1 := 0, errArg2 := 0 }) ∧
  (∀ (s : State) (w : Word), s.busy = false → 7 < w.toNat →
    ∃ n k, exec (decode w) (hostWrite (regAddr s.cfg.base .cmd) w s) = .next { s with
      lastCmd := w, busy := false, done := true, err := true, errCode := 5, errArg0 := w, errArg1 := 0, errArg2 := 0,
      busyTurns := n, draws := k })

/-! ### COUNT -/

/-- 41_frequency_counter.md R241: COUNT completes, and FREQ holds each distinct character once, in strictly ascending
order, with the number of its occurrences, which sum to IN_LEN; R240: the entries behind are zero, and nothing but
FREQ, FREQ_N and the completion flags changes; COUNT succeeds only so. -/
def Obligations.CountTabulatesTheText : Prop :=
  (∀ s : State, s.cfg.wf → s.Countable →
    ∃ t, exec .count s = .next t ∧
      t = { s with busy := false, done := true, freq := t.freq, freqN := t.freqN } ∧
      t.freqN.toNat = s.text.dedup.length ∧
      (∀ i < t.freqN.toNat, (freqEntry t.freq i).sym ∈ s.text ∧
        (freqEntry t.freq i).count.toNat = s.text.count (freqEntry t.freq i).sym ∧
        1 ≤ (freqEntry t.freq i).count.toNat) ∧
      (∀ c ∈ s.text, ∃ i < t.freqN.toNat, (freqEntry t.freq i).sym = c) ∧
      (∀ i j, i < j → j < t.freqN.toNat → (freqEntry t.freq i).sym.toNat < (freqEntry t.freq j).sym.toNat) ∧
      ((freqEntries t.freq t.freqN.toNat).map (fun e => e.count.toNat)).sum = s.inLen.toNat ∧
      (∀ i, t.freqN.toNat ≤ i → i < s.cfg.nSym → freqEntry t.freq i = ⟨0, 0⟩)) ∧
  (∀ s t : State, s.err = false → exec .count s = .next t → t.err = false → s.Countable)

/-- 41_frequency_counter.md R240, errors: CAPACITY for IN_LEN before any element is read, INVALID_CODE_POINT at the
first bad element, CAPACITY at the first character too many, whichever comes first in the text. -/
def Obligations.CountReportsTheFirstError : Prop :=
  ∀ s : State, s.cfg.wf →
    (s.cfg.inCap < s.inLen.toNat →
      ∃ t, exec .count s = .next t ∧ t.FailedWith 7 1 s.inLen (BitVec.ofNat 32 s.cfg.inCap)) ∧
    (∀ i c, s.inLen.toNat ≤ s.cfg.inCap → s.text[i]? = some c →
      (∀ x ∈ s.text.take i, validCodePoint x = true) → (s.text.take i).dedup.length ≤ s.cfg.nSym →
      (validCodePoint c = false →
        ∃ t, exec .count s = .next t ∧ t.FailedWith 3 (BitVec.ofNat 32 i) c 0) ∧
      (validCodePoint c = true → c ∉ s.text.take i → (s.text.take i).dedup.length = s.cfg.nSym →
        ∃ t, exec .count s = .next t ∧
          t.FailedWith 7 2 (BitVec.ofNat 32 (s.cfg.nSym + 1)) (BitVec.ofNat 32 s.cfg.nSym)))

/-! ### BUILD -/

/-- 42_tree_builder.md R265 and R267: BUILD completes; leaves at `0 .. n-1` with the characters and counts of FREQ,
Internal nodes at `n .. 2n-2` with children at smaller indices, their reserved words and bits 0 (10_state.md R64), the
rest EMPTY, the invariants of R49 hold, ROOT is the
last node, CODES_VALID = 0; and nothing else changes; BUILD succeeds only so. -/
def Obligations.BuildMakesTheTree : Prop :=
  (∀ s : State, s.cfg.wf → s.FreqOk →
    ∃ t, exec .build s = .next t ∧
      t = { s with
        busy := false, done := true, node := t.node, nodeN := t.nodeN, root := t.root, codeN := 0,
        treeValid := true, codesValid := false } ∧
      t.nodeN.toNat = 2 * s.freqN.toNat - 1 ∧ t.root.toNat = 2 * s.freqN.toNat - 2 ∧ t.TreeOk ∧
      (∀ i < s.freqN.toNat, nodeKind t.node i = 2 ∧ nodeA t.node i = (freqEntry s.freq i).sym ∧
        nodeB t.node i = 0 ∧ (nodeWeight t.node i).toNat = (freqEntry s.freq i).count.toNat) ∧
      (∀ i, s.freqN.toNat ≤ i → i < 2 * s.freqN.toNat - 1 →
        nodeKind t.node i = 1 ∧ (nodeA t.node i).toNat < i ∧ (nodeB t.node i).toNat < i) ∧
      (∀ i < t.nodeN.toNat, t.node.readWord (32 * i) = (nodeKind t.node i).setWidth 32 ∧
        ∀ w ∈ [3, 6, 7], t.node.readWord (32 * i + 4 * w) = 0) ∧
      (∀ i, 2 * s.freqN.toNat - 1 ≤ i → i < s.cfg.nodeCap → ∀ w < 8, t.node.readWord (32 * i + 4 * w) = 0)) ∧
  (∀ s t : State, s.err = false → exec .build s = .next t → t.err = false → s.FreqOk)

/-- 42_tree_builder.md R263 and R264: the k-th node's children are the two entries of least key `(weight, index)` among
those in the queue, the lesser on the left, and its weight is the sum of theirs. -/
def Obligations.BuildMergesTheTwoLeastKeys : Prop :=
  ∀ s t : State, s.cfg.wf → s.FreqOk → exec .build s = .next t →
    ∀ k, s.freqN.toNat ≤ k → k < t.nodeN.toNat →
      inQueueAt t.node s.freqN.toNat k (nodeA t.node k).toNat ∧
      inQueueAt t.node s.freqN.toNat k (nodeB t.node k).toNat ∧
      nodeKeyLt t.node (nodeA t.node k).toNat (nodeB t.node k).toNat ∧
      (∀ j, inQueueAt t.node s.freqN.toNat k j → j ≠ (nodeA t.node k).toNat → j ≠ (nodeB t.node k).toNat →
        nodeKeyLt t.node (nodeB t.node k).toNat j) ∧
      (nodeWeight t.node k).toNat =
        (nodeWeight t.node (nodeA t.node k).toNat).toNat + (nodeWeight t.node (nodeB t.node k).toNat).toNat

/-- 42_tree_builder.md R260 and R261, errors: the checks of FREQ_N first, then the first bad entry, its code point before
its order; NODE_N, ROOT, the flags and CODE_N are as BUILD's start leaves them (60_exceptions.md R416). -/
def Obligations.BuildReportsTheFirstError : Prop :=
  ∀ s : State, s.cfg.wf →
    (s.freqN = 0 → ∃ t, exec .build s = .next t ∧ t.FailedWith 1 0 0 0 ∧
      t.nodeN = 0 ∧ t.root = NIL ∧ t.treeValid = false ∧ t.codesValid = false ∧ t.codeN = 0) ∧
    (s.cfg.nSym < s.freqN.toNat →
      ∃ t, exec .build s = .next t ∧ t.FailedWith 7 2 s.freqN (BitVec.ofNat 32 s.cfg.nSym) ∧
        t.nodeN = 0 ∧ t.root = NIL ∧ t.treeValid = false ∧ t.codesValid = false ∧ t.codeN = 0) ∧
    (∀ i, s.freqN.toNat ≤ s.cfg.nSym → i < s.freqN.toNat →
      (∀ j < i, validCodePoint (freqEntry s.freq j).sym = true) →
      (∀ j, j + 1 < i → (freqEntry s.freq j).sym.toNat < (freqEntry s.freq (j + 1)).sym.toNat) →
      (validCodePoint (freqEntry s.freq i).sym = false →
        ∃ t, exec .build s = .next t ∧ t.FailedWith 3 (BitVec.ofNat 32 i) (freqEntry s.freq i).sym 0 ∧
          t.nodeN = 0 ∧ t.root = NIL ∧ t.treeValid = false ∧ t.codesValid = false ∧ t.codeN = 0) ∧
      (validCodePoint (freqEntry s.freq i).sym = true → 1 ≤ i →
        (freqEntry s.freq i).sym.toNat ≤ (freqEntry s.freq (i - 1)).sym.toNat →
        ∃ t, exec .build s = .next t ∧
          t.FailedWith 9 (BitVec.ofNat 32 i) (freqEntry s.freq i).sym (freqEntry s.freq (i - 1)).sym ∧
          t.nodeN = 0 ∧ t.root = NIL ∧ t.treeValid = false ∧ t.codesValid = false ∧ t.codeN = 0))

/-! ### GENCODES -/

/-- 43_code_table.md R290 to R292: GENCODES completes; the table holds, in ascending order of character, exactly the
codes of the leaves, each the leaf's path from the root, "0" for a bare Leaf; the rest of CODE is zero, and nothing
else changes. `t.leaves ≤ N_SYM` holds of every sound state (R290, corner cases). -/
def Obligations.GencodesAssignsThePaths : Prop :=
  ∀ (s : State) (t : Tree), s.cfg.wf → s.treeValid = true → s.tree = some t → t.leaves ≤ s.cfg.nSym →
    (∀ bs c, t.follow bs = some c → bs.length ≤ s.cfg.lMax) →
    (∀ bs bs' c, t.follow bs = some c → t.follow bs' = some c → bs = bs') →
    ∃ u, exec .gencodes s = .next u ∧
      u = { s with busy := false, done := true, code := u.code, codeN := u.codeN, codesValid := true } ∧
      u.codeN.toNat = t.leaves ∧
      (∀ i < t.leaves, t.wordOf (codeEntry u.code i).bits = some (codeEntry u.code i).sym ∧
        1 ≤ (codeEntry u.code i).len.toNat ∧ (codeEntry u.code i).len.toNat ≤ s.cfg.lMax ∧
        ∀ q, (codeEntry u.code i).len.toNat ≤ q → (codeEntry u.code i).val.getLsbD q = false) ∧
      (∀ bs c, t.wordOf bs = some c → ∃ i < t.leaves, (codeEntry u.code i).sym = c ∧ (codeEntry u.code i).bits = bs) ∧
      (∀ i j, i < j → j < t.leaves → (codeEntry u.code i).sym.toNat < (codeEntry u.code j).sym.toNat) ∧
      (∀ i, t.leaves ≤ i → i < s.cfg.nSym → codeEntry u.code i = ⟨0, 0, 0⟩)

/-- 43_code_table.md R293 and R294, 60_exceptions.md R406, errors of GENCODES in their order. -/
def Obligations.GencodesReportsTheFirstError : Prop :=
  ∀ s : State, s.cfg.wf →
    (s.treeValid = false → ∃ u, exec .gencodes s = .next u ∧ u.FailedWith 6 0x10 0 0 ∧
      u.codeN = 0 ∧ u.codesValid = false) ∧
    (∀ t bs c, s.treeValid = true → s.tree = some t → t.follow bs = some c → s.cfg.lMax < bs.length →
      (∀ bs' c', t.follow bs' = some c' → s.cfg.lMax < bs'.length → c.toNat ≤ c'.toNat) →
      (∀ bs', t.follow bs' = some c → bs'.length ≤ bs.length) →
      ∃ u, exec .gencodes s = .next u ∧
        u.FailedWith 8 c (BitVec.ofNat 32 bs.length) (BitVec.ofNat 32 s.cfg.lMax) ∧
        u.codeN = 0 ∧ u.codesValid = false ∧ u.treeValid = true) ∧
    (∀ t bs bs' c, s.treeValid = true → s.tree = some t →
      (∀ bs₁ c₁, t.follow bs₁ = some c₁ → bs₁.length ≤ s.cfg.lMax) →
      t.follow bs = some c → t.follow bs' = some c → bs ≠ bs' →
      (∀ bs₁ bs₂ c₁, t.follow bs₁ = some c₁ → t.follow bs₂ = some c₁ → bs₁ ≠ bs₂ → c.toNat ≤ c₁.toNat) →
      ∃ u, exec .gencodes s = .next u ∧ u.FailedWith 12 c 0 0 ∧
        u.codeN = 0 ∧ u.codesValid = false ∧ u.treeValid = true)

/-- 43_code_table.md R295: after a successful GENCODES no code is a prefix of another entry's. -/
def Obligations.CodesArePrefixFree : Prop :=
  ∀ s u : State, s.Sound → exec .gencodes s = .next u → u.codesValid = true →
    ∀ i j, i < u.codeN.toNat → j < u.codeN.toNat → i ≠ j →
      ¬(codeEntry u.code i).bits <+: (codeEntry u.code j).bits

/-! ### SERIALIZE and ENCODE -/

/-- 44_encoder.md R310 to R315, 30_encoding.md R150 to R157: SERIALIZE completes; OBUF holds the stream, one byte an
element: the tree region, the codes of the text in order, zero padding, and the trailer from which R156 recovers the
stop position; OUT_LEN, TREE_BITS, PAYLOAD_BITS and STOP_POS say so; OBUF behind and everything else are as before. -/
def Obligations.SerializeWritesTheStream : Prop :=
  ∀ (s : State) (t : Tree) (codes : List CodeEntry) (bits : List Bool), s.cfg.wf →
    s.treeValid = true → s.codesValid = true → s.tree = some t → codes = codeEntries s.code s.codeN.toNat →
    1 ≤ s.inLen.toNat → s.inLen.toNat ≤ s.cfg.inCap →
    (∀ c ∈ s.text, validCodePoint c = true ∧ ∃ e ∈ codes, e.sym = c) →
    bits = t.bits ++ s.text.flatMap (codeBitsOf codes) → streamBytes bits.length ≤ s.cfg.outCap →
    ∃ u, exec .serialize s = .next u ∧
      u = { s with
        busy := false, done := true, obuf := u.obuf, outLen := u.outLen, treeBits := u.treeBits,
        payloadBits := u.payloadBits, stopPos := u.stopPos } ∧
      u.outLen.toNat = streamBytes bits.length ∧ u.treeBits.toNat = t.bits.length ∧
      u.payloadBits.toNat = bits.length - t.bits.length ∧ u.stopPos.toNat = bits.length ∧
      u.treeBits.toNat = 34 * t.leaves - 1 ∧
      (List.range bits.length).map (streamBit u.obuf) = bits ∧
      (∀ p, bits.length ≤ p → p < 8 * u.outLen.toNat - 3 → streamBit u.obuf p = false) ∧
      stopOf u.obuf u.outLen.toNat = bits.length ∧
      (∀ k < u.outLen.toNat, (ibufWord u.obuf k).toNat < 256) ∧
      (∀ b, 4 * u.outLen.toNat ≤ b → u.obuf.readByte b = s.obuf.readByte b)

/-- 44_encoder.md R310, R316, 60_exceptions.md R406, R407, R410: the register checks of SERIALIZE in their order, and the
first character that is not valid or has no code, in a stream that fits up to it; a stream that does not fit up to a
character, or, with its trailer, at all (R316). -/
def Obligations.SerializeReportsTheFirstError : Prop :=
  ∀ s : State, s.cfg.wf →
    (s.treeValid = false ∨ s.codesValid = false →
      ∃ u, exec .serialize s = .next u ∧
        u.FailedWith 6 ((if s.treeValid then 0 else 0x10) ||| (if s.codesValid then 0 else 0x20)) 0 0) ∧
    (s.treeValid = true → s.codesValid = true → s.cfg.inCap < s.inLen.toNat →
      ∃ u, exec .serialize s = .next u ∧ u.FailedWith 7 1 s.inLen (BitVec.ofNat 32 s.cfg.inCap)) ∧
    (s.treeValid = true → s.codesValid = true → s.inLen = 0 →
      ∃ u, exec .serialize s = .next u ∧ u.FailedWith 1 0 0 0) ∧
    (∀ t codes bits i c, s.treeValid = true → s.codesValid = true → s.tree = some t →
      codes = codeEntries s.code s.codeN.toNat → s.inLen.toNat ≤ s.cfg.inCap → s.text[i]? = some c →
      (∀ x ∈ s.text.take i, validCodePoint x = true ∧ ∃ e ∈ codes, e.sym = x) →
      bits = t.bits ++ (s.text.take i).flatMap (codeBitsOf codes) →
      (bits.length / 8 ≤ s.cfg.outCap →
        (validCodePoint c = false → ∃ u, exec .serialize s = .next u ∧ u.FailedWith 3 (BitVec.ofNat 32 i) c 0) ∧
        (validCodePoint c = true → (∀ e ∈ codes, e.sym ≠ c) →
          ∃ u, exec .serialize s = .next u ∧ u.FailedWith 10 (BitVec.ofNat 32 i) c 0)) ∧
      (s.cfg.outCap < bits.length / 8 →
        ∃ u, exec .serialize s = .next u ∧
          u.FailedWith 7 4 (BitVec.ofNat 32 (s.cfg.outCap + 1)) (BitVec.ofNat 32 s.cfg.outCap))) ∧
    (∀ t codes bits, s.treeValid = true → s.codesValid = true → s.tree = some t →
      codes = codeEntries s.code s.codeN.toNat → s.inLen ≠ 0 → s.inLen.toNat ≤ s.cfg.inCap →
      (∀ x ∈ s.text, validCodePoint x = true ∧ ∃ e ∈ codes, e.sym = x) →
      bits = t.bits ++ s.text.flatMap (codeBitsOf codes) → s.cfg.outCap < streamBytes bits.length →
      ∃ u, exec .serialize s = .next u ∧
        u.FailedWith 7 4 (BitVec.ofNat 32 (s.cfg.outCap + 1)) (BitVec.ofNat 32 s.cfg.outCap))

/-- 44_encoder.md R320: ENCODE is COUNT, BUILD, GENCODES and SERIALIZE one after the other, up to the first that raises;
an error in any stage also clears the stream registers and leaves OBUF unspecified (R416). With R172: ENCODE_STEPS ends
in ENCODE's state. -/
def Obligations.EncodeIsTheFourCommands : Prop :=
  ∀ s : State, s.err = false →
    exec .encode s =
      thenCommand (exec .count s) fun s1 =>
        thenCommand (exec .build s1) fun s2 =>
          thenCommand (exec .gencodes s2) fun s3 => thenCommand (exec .serialize s3) .next

/-- 44_encoder.md R320 and R321: when the four stages' computations on the text succeed, ENCODE completes without error
with their four results, and PAYLOAD_BITS is the sum of count times code length. -/
def Obligations.EncodeCompletesWithAllResults : Prop :=
  ∀ (s : State) (tab : List FreqEntry) (t : Tree) (cs : List CodeEntry) (r : Stream), s.cfg.wf →
    s.inLen.toNat ≤ s.cfg.inCap → countText s.cfg.nSym 0 s.text [] = .ok tab → tab ≠ [] →
    builtTree s.cfg.nodeCap tab = some t → codeTable s.cfg.lMax t = .ok cs →
    serialize s.cfg.outCap t cs s.text = .ok r →
    exec .encode s = .next { s with
      busy := false, done := true
      freq := Memory.ofWords (tab.flatMap FreqEntry.words), freqN := BitVec.ofNat 32 tab.length
      node := Memory.ofWords ((buildNodes tab).1.flatMap Node.words)
      nodeN := BitVec.ofNat 32 (2 * tab.length - 1), root := BitVec.ofNat 32 (2 * tab.length - 2), treeValid := true
      code := Memory.ofWords (cs.flatMap CodeEntry.words), codeN := BitVec.ofNat 32 tab.length, codesValid := true
      obuf := s.obuf.writeWords 0 (r.bytes.map (fun b => b.setWidth 32)), outLen := BitVec.ofNat 32 r.bytes.length
      treeBits := BitVec.ofNat 32 (34 * tab.length - 1), payloadBits := BitVec.ofNat 32 r.payloadLen
      stopPos := BitVec.ofNat 32 (34 * tab.length - 1 + r.payloadLen) } ∧
    r.payloadLen = (List.zipWith (fun e c => e.count.toNat * c.len.toNat) tab cs).sum

/-! ### DECODE -/

/-- 45_decoder.md R362: DECODE of a well-formed stream completes; OBUF holds the text, the node memory the stream's tree
numbered in preorder with weights and reserved words 0 (10_state.md R64) and EMPTY entries behind, the registers say so, and everything else is as before; DECODE succeeds
only so. -/
def Obligations.DecodeReadsAWellFormedStream : Prop :=
  (∀ (s : State) (t : Tree) (text : List Word), s.cfg.wf → s.inLen.toNat ≤ s.cfg.inCap →
    WellFormedStream s.cfg s.ibuf s.inLen.toNat t text →
    ∃ u, exec .decode s = .next u ∧
      u = { s with
        busy := false, done := true, treeValid := true, codesValid := false, codeN := 0, node := u.node,
        nodeN := u.nodeN, root := 0, obuf := u.obuf, outLen := u.outLen, treeBits := u.treeBits,
        payloadBits := u.payloadBits, stopPos := u.stopPos } ∧
      u.outLen.toNat = text.length ∧ (∀ i, ∀ h : i < text.length, ibufWord u.obuf i = text[i]) ∧
      (∀ b, 4 * u.outLen.toNat ≤ b → u.obuf.readByte b = s.obuf.readByte b) ∧
      u.tree = some t ∧ u.nodeN.toNat = 2 * t.leaves - 1 ∧
      reachedNodes u.node u.cfg.nodeCap 0 = List.range u.nodeN.toNat ∧
      (∀ i < u.nodeN.toNat, nodeWeight u.node i = 0) ∧
      (∀ i < u.nodeN.toNat, (nodeKind u.node i = 1 ∨ nodeKind u.node i = 2 ∧ nodeB u.node i = 0) ∧
        u.node.readWord (32 * i) = (nodeKind u.node i).setWidth 32 ∧
        ∀ w ∈ [3, 6, 7], u.node.readWord (32 * i + 4 * w) = 0) ∧
      (∀ i, u.nodeN.toNat ≤ i → i < u.cfg.nodeCap → ∀ w < 8, u.node.readWord (32 * i + 4 * w) = 0) ∧
      u.treeBits.toNat = t.bits.length ∧ u.stopPos.toNat = stopOf s.ibuf s.inLen.toNat ∧
      u.payloadBits.toNat = stopOf s.ibuf s.inLen.toNat - t.bits.length) ∧
  (∀ s u : State, s.cfg.wf → exec .decode s = .next u → u.treeValid = true →
    s.inLen.toNat ≤ s.cfg.inCap ∧ ∃ t text, WellFormedStream s.cfg s.ibuf s.inLen.toNat t text)

/-- 30_encoding.md R158: a byte sequence of at most IN_CAP bytes is a well-formed stream exactly when DECODE accepts it. -/
def Obligations.DecodeAcceptsExactlyWellFormedStreams : Prop :=
  ∀ s : State, s.cfg.wf → s.inLen.toNat ≤ s.cfg.inCap →
    ((∃ t text, WellFormedStream s.cfg s.ibuf s.inLen.toNat t text) ↔
      ∃ u, exec .decode s = .next u ∧ u.treeValid = true)

/-- 45_decoder.md R363: the round trip. DECODE of the stream ENCODE produced gives the text, and the encoder's tree,
numbered in preorder. -/
def Obligations.DecodeInvertsEncodeCommand : Prop :=
  ∀ s u v : State, s.cfg.wf → s.err = false → exec .encode s = .next u → u.err = false →
    u.outLen.toNat ≤ s.cfg.inCap → s.inLen.toNat ≤ s.cfg.outCap →
    v.cfg = s.cfg → v.inLen = u.outLen → (∀ k < u.outLen.toNat, ibufWord v.ibuf k = ibufWord u.obuf k) →
    ∃ w, exec .decode v = .next w ∧ w.err = v.err ∧ w.treeValid = true ∧ w.outLen = s.inLen ∧
      (∀ i < s.inLen.toNat, ibufWord w.obuf i = ibufWord s.ibuf i) ∧ w.tree = u.tree ∧
      w.root = 0 ∧ reachedNodes w.node w.cfg.nodeCap 0 = List.range w.nodeN.toNat

/-- 45_decoder.md R350, R352, R355, R356, 60_exceptions.md R402, R403, R407: errors of Phase 1 of DECODE, behind any nodes
that are not yet a whole tree: no bit for the next tag, no entry for the next node, a character cut by the end of the
stream, and an invalid character. -/
def Obligations.DecodeReportsTreeRegionErrors : Prop :=
  ∀ (s : State) (n p : Nat) (xs : List (Option Word)), s.cfg.wf → n = s.inLen.toNat → n ≤ s.cfg.inCap →
    TreeBeginsWith s.cfg s.ibuf n xs → p = (xs.flatMap nodeBits).length →
    (p = 8 * n → ∃ u, exec .decode s = .next u ∧
      u.FailedWith 2 (BitVec.ofNat 32 p) (BitVec.ofNat 32 (p + 1)) (BitVec.ofNat 32 (8 * n))) ∧
    (p < 8 * n → xs.length = s.cfg.nodeCap → ∃ u, exec .decode s = .next u ∧
      u.FailedWith 7 3 (BitVec.ofNat 32 (s.cfg.nodeCap + 1)) (BitVec.ofNat 32 s.cfg.nodeCap)) ∧
    (p < 8 * n → xs.length < s.cfg.nodeCap → streamBit s.ibuf p = true →
      (8 * n < p + 33 → ∃ u, exec .decode s = .next u ∧
        u.FailedWith 2 (BitVec.ofNat 32 (p + 1)) (BitVec.ofNat 32 (p + 33)) (BitVec.ofNat 32 (8 * n))) ∧
      (p + 33 ≤ 8 * n → ∀ x : Word,
        (List.range 32).map (fun k => streamBit s.ibuf (p + 1 + k)) = wordBits x → validCodePoint x = false →
        ∃ u, exec .decode s = .next u ∧ u.FailedWith 3 (BitVec.ofNat 32 (p + 1)) x 0))

/-- 45_decoder.md R350 to R361, errors of DECODE: the length check, the empty stream, no room for the trailer, a stop
position inside the tree, a 1 in a single-character payload, a code cut by the stop position, a text too long for OBUF,
and an invalid code point in a Leaf at the root. Phase 1 in general is DecodeReportsTreeRegionErrors. -/
def Obligations.DecodeReportsTheFirstError : Prop :=
  ∀ (s : State) (n : Nat), s.cfg.wf → n = s.inLen.toNat →
    (s.cfg.inCap < n → ∃ u, exec .decode s = .next u ∧ u.FailedWith 7 1 s.inLen (BitVec.ofNat 32 s.cfg.inCap)) ∧
    (n = 0 → ∃ u, exec .decode s = .next u ∧ u.FailedWith 2 0 1 0) ∧
    (n ≤ s.cfg.inCap → 33 ≤ 8 * n → streamBit s.ibuf 0 = true →
      ∀ x : Word, (List.range 32).map (fun k => streamBit s.ibuf (1 + k)) = wordBits x → validCodePoint x = false →
      ∃ u, exec .decode s = .next u ∧ u.FailedWith 3 1 x 0) ∧
    (∀ t : Tree, n ≤ s.cfg.inCap → TreeRegionOf s.cfg s.ibuf n t →
      (8 * n < t.bits.length + 3 → ∃ u, exec .decode s = .next u ∧
        u.FailedWith 2 (BitVec.ofNat 32 t.bits.length) (BitVec.ofNat 32 (t.bits.length + 3)) (BitVec.ofNat 32 (8 * n))) ∧
      (t.bits.length + 3 ≤ 8 * n → stopOf s.ibuf n < t.bits.length → ∃ u, exec .decode s = .next u ∧
        u.FailedWith 4 (BitVec.ofNat 32 (stopOf s.ibuf n)) (BitVec.ofNat 32 t.bits.length) (BitVec.ofNat 32 (8 * n))) ∧
      (t.bits.length + 3 ≤ 8 * n → t.bits.length ≤ stopOf s.ibuf n →
        (∀ c k, t = .leaf c → (payloadOf s.ibuf n t)[k]? = some true → (∀ b ∈ (payloadOf s.ibuf n t).take k, b = false) →
          k ≤ s.cfg.outCap →
          ∃ u, exec .decode s = .next u ∧ u.FailedWith 11 (BitVec.ofNat 32 (t.bits.length + k)) 1 0) ∧
        (∀ bs rest more text c, payloadOf s.ibuf n t = bs ++ rest → SpellsText t bs text →
          text.length ≤ s.cfg.outCap → rest ≠ [] → more ≠ [] → t.follow (rest ++ more) = some c →
          ∃ u, exec .decode s = .next u ∧
            u.FailedWith 2 (BitVec.ofNat 32 (stopOf s.ibuf n)) (BitVec.ofNat 32 (stopOf s.ibuf n + 1))
              (BitVec.ofNat 32 (stopOf s.ibuf n))) ∧
        (∀ bs rest text, payloadOf s.ibuf n t = bs ++ rest → SpellsText t bs text → text.length = s.cfg.outCap + 1 →
          ∃ u, exec .decode s = .next u ∧
            u.FailedWith 7 4 (BitVec.ofNat 32 (s.cfg.outCap + 1)) (BitVec.ofNat 32 s.cfg.outCap))))

/-- 70_reset_and_hazards.md R475, for DECODE, with 10_state.md R50: its results depend only on the parameters, IN_LEN and
bits [7:0] of the IBUF elements, never on what an earlier command left. -/
def Obligations.DecodeDependsOnItsStreamOnly : Prop :=
  ∀ s s' u u' : State, s.cfg = s'.cfg → s.inLen = s'.inLen →
    (∀ k < s.inLen.toNat, (ibufWord s.ibuf k).toNat % 256 = (ibufWord s'.ibuf k).toNat % 256) →
    exec .decode s = .next u → exec .decode s' = .next u' →
    u.treeValid = u'.treeValid ∧ u.codesValid = u'.codesValid ∧ u.nodeN = u'.nodeN ∧ u.root = u'.root ∧
    u.codeN = u'.codeN ∧ u.outLen = u'.outLen ∧ u.treeBits = u'.treeBits ∧ u.payloadBits = u'.payloadBits ∧
    u.stopPos = u'.stopPos ∧
    (u.treeValid = true → u.node = u'.node ∧ ∀ k < u.outLen.toNat, ibufWord u.obuf k = ibufWord u'.obuf k) ∧
    (u.treeValid = false → u.errCode = u'.errCode ∧ u.errArg0 = u'.errArg0 ∧ u.errArg1 = u'.errArg1 ∧
      u.errArg2 = u'.errArg2)

/-- 70_reset_and_hazards.md R475, for ENCODE: its results depend only on the parameters, IN_LEN and the IBUF elements. -/
def Obligations.EncodeDependsOnItsTextOnly : Prop :=
  ∀ s s' u u' : State, s.cfg = s'.cfg → s.inLen = s'.inLen → s.text = s'.text →
    s.err = false → s'.err = false → exec .encode s = .next u → exec .encode s' = .next u' →
    u.err = u'.err ∧ u.outLen = u'.outLen ∧ u.treeBits = u'.treeBits ∧ u.payloadBits = u'.payloadBits ∧
    u.stopPos = u'.stopPos ∧ u.freqN = u'.freqN ∧
    (u.err = false → u.freq = u'.freq ∧ u.node = u'.node ∧ u.nodeN = u'.nodeN ∧ u.root = u'.root ∧
      u.code = u'.code ∧ u.codeN = u'.codeN ∧ ∀ k < u.outLen.toNat, ibufWord u.obuf k = ibufWord u'.obuf k) ∧
    (u.err = true → u.errCode = u'.errCode ∧ u.errArg0 = u'.errArg0 ∧ u.errArg1 = u'.errArg1 ∧
      u.errArg2 = u'.errArg2)

/-! ### All commands -/

/-- The frame of every command, named by what its rule lets it write (R141, R220, R222, R240, R260, R290, R310, R320, R350,
R405, R415, R416): every other register, flag and window is as before. No command writes CTRL (R35), LAST_CMD (R36),
HAZ (R211), IN_LEN (R42) or IBUF (R50). `draws` is the model's own field (log 2). -/
def Obligations.CommandsChangeOnlyTheirResults : Prop :=
  (∀ s t : State, exec .nop s = .next t → t = { s with busy := t.busy, done := t.done }) ∧
  (∀ s t : State, exec .clear s = .next t → t = { s with
    busy := t.busy, done := t.done, freqN := t.freqN, nodeN := t.nodeN, root := t.root, codeN := t.codeN,
    treeValid := t.treeValid, codesValid := t.codesValid, outLen := t.outLen, treeBits := t.treeBits,
    payloadBits := t.payloadBits, stopPos := t.stopPos }) ∧
  (∀ s t : State, exec .count s = .next t → t = { s with
    busy := t.busy, done := t.done, err := t.err, errCode := t.errCode, errArg0 := t.errArg0, errArg1 := t.errArg1,
    errArg2 := t.errArg2, draws := t.draws, freq := t.freq, freqN := t.freqN }) ∧
  (∀ s t : State, exec .build s = .next t → t = { s with
    busy := t.busy, done := t.done, err := t.err, errCode := t.errCode, errArg0 := t.errArg0, errArg1 := t.errArg1,
    errArg2 := t.errArg2, draws := t.draws, node := t.node, nodeN := t.nodeN, root := t.root, codeN := t.codeN,
    treeValid := t.treeValid, codesValid := t.codesValid }) ∧
  (∀ s t : State, exec .gencodes s = .next t → t = { s with
    busy := t.busy, done := t.done, err := t.err, errCode := t.errCode, errArg0 := t.errArg0, errArg1 := t.errArg1,
    errArg2 := t.errArg2, draws := t.draws, code := t.code, codeN := t.codeN, codesValid := t.codesValid }) ∧
  (∀ s t : State, exec .serialize s = .next t → t = { s with
    busy := t.busy, done := t.done, err := t.err, errCode := t.errCode, errArg0 := t.errArg0, errArg1 := t.errArg1,
    errArg2 := t.errArg2, draws := t.draws, obuf := t.obuf, outLen := t.outLen, treeBits := t.treeBits,
    payloadBits := t.payloadBits, stopPos := t.stopPos }) ∧
  (∀ s t : State, exec .encode s = .next t → t = { s with
    busy := t.busy, done := t.done, err := t.err, errCode := t.errCode, errArg0 := t.errArg0, errArg1 := t.errArg1,
    errArg2 := t.errArg2, draws := t.draws, freq := t.freq, freqN := t.freqN, node := t.node, nodeN := t.nodeN,
    root := t.root, code := t.code, codeN := t.codeN, treeValid := t.treeValid, codesValid := t.codesValid,
    obuf := t.obuf, outLen := t.outLen, treeBits := t.treeBits, payloadBits := t.payloadBits,
    stopPos := t.stopPos }) ∧
  (∀ s t : State, exec .decode s = .next t → t = { s with
    busy := t.busy, done := t.done, err := t.err, errCode := t.errCode, errArg0 := t.errArg0, errArg1 := t.errArg1,
    errArg2 := t.errArg2, draws := t.draws, node := t.node, nodeN := t.nodeN, root := t.root, codeN := t.codeN,
    treeValid := t.treeValid, codesValid := t.codesValid, obuf := t.obuf, outLen := t.outLen,
    treeBits := t.treeBits, payloadBits := t.payloadBits, stopPos := t.stopPos }) ∧
  (∀ (i : Instr) (s t : State), i.illegal = true → exec i s = .next t → t = { s with
    busy := t.busy, done := t.done, err := t.err, errCode := t.errCode, errArg0 := t.errArg0, errArg1 := t.errArg1,
    errArg2 := t.errArg2 }) ∧
  (∀ (i : Instr) (s t : State), s.cfg.wf → i ∈ [Instr.serialize, .encode, .decode] → exec i s = .next t →
    s.err = false → t.err = false → ∀ b, 4 * t.outLen.toNat ≤ b → t.obuf.readByte b = s.obuf.readByte b)

/-- 40_command_lifecycle.md R205 and 60_exceptions.md R415: every completion clears BUSY and sets DONE; without an error
ERR and the error record keep their values since acceptance, with one they hold it, and the code is one of R400. -/
def Obligations.CompletionSetsTheFlags : Prop :=
  ∀ (i : Instr) (s t : State), exec i s = .next t →
    t.busy = false ∧ t.done = true ∧
    ((t.err = s.err ∧ t.errCode = s.errCode ∧ t.errArg0 = s.errArg0 ∧ t.errArg1 = s.errArg1 ∧
        t.errArg2 = s.errArg2) ∨
      (t.err = true ∧ 1 ≤ t.errCode.toNat ∧ t.errCode.toNat ≤ 12))

/-- 60_exceptions.md R416: the error effects of each command. That an unspecified window holds the free values of one draw
is the model's form of it (log 2). -/
def Obligations.ErrorEffectsOfEachCommand : Prop :=
  ∀ s t : State, s.err = false → t.err = true →
    (exec .count s = .next t → t.freqN = 0 ∧ ∃ k, t.freq = ⟨.unspecified k, []⟩) ∧
    (exec .build s = .next t → t.nodeN = 0 ∧ t.root = NIL ∧ t.treeValid = false ∧ t.codesValid = false ∧
      t.codeN = 0 ∧ ∃ k, t.node = ⟨.unspecified k, []⟩) ∧
    (exec .gencodes s = .next t → t.codeN = 0 ∧ t.codesValid = false ∧ ∃ k, t.code = ⟨.unspecified k, []⟩) ∧
    (exec .serialize s = .next t → t.outLen = 0 ∧ t.treeBits = 0 ∧ t.payloadBits = 0 ∧ t.stopPos = 0 ∧
      ∃ k, t.obuf = ⟨.unspecified k, []⟩) ∧
    (exec .encode s = .next t → t.outLen = 0 ∧ t.treeBits = 0 ∧ t.payloadBits = 0 ∧ t.stopPos = 0 ∧
      ∃ k, t.obuf = ⟨.unspecified k, []⟩) ∧
    (exec .decode s = .next t → t.nodeN = 0 ∧ t.root = NIL ∧ t.treeValid = false ∧ t.codesValid = false ∧
      t.codeN = 0 ∧ t.outLen = 0 ∧ t.treeBits = 0 ∧ t.payloadBits = 0 ∧ t.stopPos = 0 ∧
      (∃ k, t.node = ⟨.unspecified k, []⟩) ∧ ∃ k, t.obuf = ⟨.unspecified k, []⟩) ∧
    (exec .nop s ≠ .next t) ∧ (exec .clear s ≠ .next t)

/-- 60_exceptions.md R413: which codes each command can raise. -/
def Obligations.CommandsRaiseOnlyTheirCodes : Prop :=
  ∀ s t : State, s.cfg.wf → s.err = false → t.err = true →
    (exec .count s = .next t → t.errCode.toNat ∈ [7, 3]) ∧
    (exec .build s = .next t → t.errCode.toNat ∈ [1, 7, 3, 9]) ∧
    (exec .gencodes s = .next t → t.errCode.toNat ∈ [6, 8, 12]) ∧
    (exec .serialize s = .next t → t.errCode.toNat ∈ [6, 7, 1, 3, 10]) ∧
    (exec .encode s = .next t → t.errCode.toNat ∈ [7, 3, 1, 8]) ∧
    (exec .decode s = .next t → t.errCode.toNat ∈ [7, 2, 3, 4, 11])

/-- 43_code_table.md R297 and 10_state.md R37: who sets and who clears the validity flags. -/
def Obligations.ValidityFlagsFollowTheirObjects : Prop :=
  ∀ (i : Instr) (s t : State), exec i s = .next t →
    (t.treeValid = true → i ∈ [Instr.build, .encode, .decode] ∨ s.treeValid = true) ∧
    (t.codesValid = true → i ∈ [Instr.gencodes, .encode] ∨ s.codesValid = true) ∧
    (i ∈ [Instr.clear, .build, .decode] → t.codesValid = false ∧ t.codeN = 0) ∧
    (i = .clear → t.treeValid = false ∧ t.nodeN = 0 ∧ t.root = NIL)

/-! ### Invariants and completion -/

/-- Every step keeps the canonical form of every window's contents. -/
def Obligations.StepKeepsMemoryCanonical : Prop :=
  ∀ s t : State, (∀ w : Win, (s.win w).wf) → step s = .next t → ∀ w : Win, (t.win w).wf

/-- 10_state.md R49: the rules preserve the invariants: every step of a sound state, whatever its host events, gives a
sound state. -/
def Obligations.StepKeepsSound : Prop :=
  ∀ s t : State, s.Sound → step s = .next t → t.Sound

/-- In a sound state every command, and every word, completes: the fault of log 10 is not reached. -/
def Obligations.SoundStatesCompleteEveryCommand : Prop :=
  ∀ (i : Instr) (s : State), s.Sound → ∃ t, exec i s = .next t

/-- 40_command_lifecycle.md R206: an accepted command completes after finitely many host transactions, whatever they are
(a reset and a form the bus cannot carry apart). The bound is the model's free value of log 3. -/
def Obligations.EveryAcceptedCommandCompletes : Prop :=
  ∀ s : State, s.Sound → s.busy = true → (∀ e ∈ s.pending, e.plain = true) →
    ∃ k t, k ≤ s.busyTurns + 1 ∧ Sys2Proof.core.run k s = .next t ∧ t.busy = false ∧ t.done = true

/-- Where the model stops (log 10): GENCODES and SERIALIZE over a node memory that is no tree, which no sound state has. -/
def Obligations.NodeMemoryWithoutTreeStops : Prop :=
  (∀ s : State, s.treeValid = true → s.tree = none →
    exec .gencodes s = .fault .nodeMemoryNotATree ∧
    (s.codesValid = true → s.inLen ≠ 0 → s.inLen.toNat ≤ s.cfg.inCap →
      exec .serialize s = .fault .nodeMemoryNotATree)) ∧
  (∀ (i : Instr) (s : State) (f : Fault), exec i s = .fault f → ¬s.Sound)
end

