-- ==== Sys2Proof/Laws/State.lean ====
section
/-! SUPPORT. One lemma per field per named update of State, each true by `rfl`: no later proof unfolds a record update. -/

namespace Sys2Proof.Machine

/-! ### acceptRegs -/

@[simp] theorem acceptRegs_cfg (w : Word) (s : State) : (acceptRegs w s).cfg = s.cfg := rfl
@[simp] theorem acceptRegs_irqEn (w : Word) (s : State) : (acceptRegs w s).irqEn = s.irqEn := rfl
@[simp] theorem acceptRegs_lastCmd (w : Word) (s : State) : (acceptRegs w s).lastCmd = w := rfl
@[simp] theorem acceptRegs_busy (w : Word) (s : State) : (acceptRegs w s).busy = true := rfl
@[simp] theorem acceptRegs_done (w : Word) (s : State) : (acceptRegs w s).done = false := rfl
@[simp] theorem acceptRegs_err (w : Word) (s : State) : (acceptRegs w s).err = false := rfl
@[simp] theorem acceptRegs_haz (w : Word) (s : State) : (acceptRegs w s).haz = s.haz := rfl
@[simp] theorem acceptRegs_treeValid (w : Word) (s : State) : (acceptRegs w s).treeValid = s.treeValid := rfl
@[simp] theorem acceptRegs_codesValid (w : Word) (s : State) : (acceptRegs w s).codesValid = s.codesValid := rfl
@[simp] theorem acceptRegs_errCode (w : Word) (s : State) : (acceptRegs w s).errCode = 0 := rfl
@[simp] theorem acceptRegs_errArg0 (w : Word) (s : State) : (acceptRegs w s).errArg0 = 0 := rfl
@[simp] theorem acceptRegs_errArg1 (w : Word) (s : State) : (acceptRegs w s).errArg1 = 0 := rfl
@[simp] theorem acceptRegs_errArg2 (w : Word) (s : State) : (acceptRegs w s).errArg2 = 0 := rfl
@[simp] theorem acceptRegs_inLen (w : Word) (s : State) : (acceptRegs w s).inLen = s.inLen := rfl
@[simp] theorem acceptRegs_outLen (w : Word) (s : State) : (acceptRegs w s).outLen = s.outLen := rfl
@[simp] theorem acceptRegs_freqN (w : Word) (s : State) : (acceptRegs w s).freqN = s.freqN := rfl
@[simp] theorem acceptRegs_nodeN (w : Word) (s : State) : (acceptRegs w s).nodeN = s.nodeN := rfl
@[simp] theorem acceptRegs_root (w : Word) (s : State) : (acceptRegs w s).root = s.root := rfl
@[simp] theorem acceptRegs_codeN (w : Word) (s : State) : (acceptRegs w s).codeN = s.codeN := rfl
@[simp] theorem acceptRegs_treeBits (w : Word) (s : State) : (acceptRegs w s).treeBits = s.treeBits := rfl
@[simp] theorem acceptRegs_payloadBits (w : Word) (s : State) : (acceptRegs w s).payloadBits = s.payloadBits := rfl
@[simp] theorem acceptRegs_stopPos (w : Word) (s : State) : (acceptRegs w s).stopPos = s.stopPos := rfl
@[simp] theorem acceptRegs_ibuf (w : Word) (s : State) : (acceptRegs w s).ibuf = s.ibuf := rfl
@[simp] theorem acceptRegs_obuf (w : Word) (s : State) : (acceptRegs w s).obuf = s.obuf := rfl
@[simp] theorem acceptRegs_freq (w : Word) (s : State) : (acceptRegs w s).freq = s.freq := rfl
@[simp] theorem acceptRegs_node (w : Word) (s : State) : (acceptRegs w s).node = s.node := rfl
@[simp] theorem acceptRegs_code (w : Word) (s : State) : (acceptRegs w s).code = s.code := rfl
@[simp] theorem acceptRegs_rsp (w : Word) (s : State) : (acceptRegs w s).rsp = s.rsp := rfl
@[simp] theorem acceptRegs_pending (w : Word) (s : State) : (acceptRegs w s).pending = s.pending := rfl
@[simp] theorem acceptRegs_busyTurns (w : Word) (s : State) : (acceptRegs w s).busyTurns = s.busyTurns := rfl
@[simp] theorem acceptRegs_draws (w : Word) (s : State) : (acceptRegs w s).draws = s.draws := rfl

/-! ### accept -/

@[simp] theorem accept_cfg (w : Word) (s : State) : (accept w s).cfg = s.cfg := rfl
@[simp] theorem accept_irqEn (w : Word) (s : State) : (accept w s).irqEn = s.irqEn := rfl
@[simp] theorem accept_lastCmd (w : Word) (s : State) : (accept w s).lastCmd = w := rfl
@[simp] theorem accept_busy (w : Word) (s : State) : (accept w s).busy = true := rfl
@[simp] theorem accept_done (w : Word) (s : State) : (accept w s).done = false := rfl
@[simp] theorem accept_err (w : Word) (s : State) : (accept w s).err = false := rfl
@[simp] theorem accept_haz (w : Word) (s : State) : (accept w s).haz = s.haz := rfl
@[simp] theorem accept_treeValid (w : Word) (s : State) : (accept w s).treeValid = s.treeValid := rfl
@[simp] theorem accept_codesValid (w : Word) (s : State) : (accept w s).codesValid = s.codesValid := rfl
@[simp] theorem accept_errCode (w : Word) (s : State) : (accept w s).errCode = 0 := rfl
@[simp] theorem accept_errArg0 (w : Word) (s : State) : (accept w s).errArg0 = 0 := rfl
@[simp] theorem accept_errArg1 (w : Word) (s : State) : (accept w s).errArg1 = 0 := rfl
@[simp] theorem accept_errArg2 (w : Word) (s : State) : (accept w s).errArg2 = 0 := rfl
@[simp] theorem accept_inLen (w : Word) (s : State) : (accept w s).inLen = s.inLen := rfl
@[simp] theorem accept_outLen (w : Word) (s : State) : (accept w s).outLen = s.outLen := rfl
@[simp] theorem accept_freqN (w : Word) (s : State) : (accept w s).freqN = s.freqN := rfl
@[simp] theorem accept_nodeN (w : Word) (s : State) : (accept w s).nodeN = s.nodeN := rfl
@[simp] theorem accept_root (w : Word) (s : State) : (accept w s).root = s.root := rfl
@[simp] theorem accept_codeN (w : Word) (s : State) : (accept w s).codeN = s.codeN := rfl
@[simp] theorem accept_treeBits (w : Word) (s : State) : (accept w s).treeBits = s.treeBits := rfl
@[simp] theorem accept_payloadBits (w : Word) (s : State) : (accept w s).payloadBits = s.payloadBits := rfl
@[simp] theorem accept_stopPos (w : Word) (s : State) : (accept w s).stopPos = s.stopPos := rfl
@[simp] theorem accept_ibuf (w : Word) (s : State) : (accept w s).ibuf = s.ibuf := rfl
@[simp] theorem accept_obuf (w : Word) (s : State) : (accept w s).obuf = s.obuf := rfl
@[simp] theorem accept_freq (w : Word) (s : State) : (accept w s).freq = s.freq := rfl
@[simp] theorem accept_node (w : Word) (s : State) : (accept w s).node = s.node := rfl
@[simp] theorem accept_code (w : Word) (s : State) : (accept w s).code = s.code := rfl
@[simp] theorem accept_rsp (w : Word) (s : State) : (accept w s).rsp = s.rsp := rfl
@[simp] theorem accept_pending (w : Word) (s : State) : (accept w s).pending = s.pending := rfl
@[simp] theorem accept_busyTurns (w : Word) (s : State) : (accept w s).busyTurns = Config.freeTurns s.draws := rfl
@[simp] theorem accept_draws (w : Word) (s : State) : (accept w s).draws = s.draws + 1 := rfl

/-! ### complete -/

@[simp] theorem complete_cfg (s : State) : (complete s).cfg = s.cfg := rfl
@[simp] theorem complete_irqEn (s : State) : (complete s).irqEn = s.irqEn := rfl
@[simp] theorem complete_lastCmd (s : State) : (complete s).lastCmd = s.lastCmd := rfl
@[simp] theorem complete_busy (s : State) : (complete s).busy = false := rfl
@[simp] theorem complete_done (s : State) : (complete s).done = true := rfl
@[simp] theorem complete_err (s : State) : (complete s).err = s.err := rfl
@[simp] theorem complete_haz (s : State) : (complete s).haz = s.haz := rfl
@[simp] theorem complete_treeValid (s : State) : (complete s).treeValid = s.treeValid := rfl
@[simp] theorem complete_codesValid (s : State) : (complete s).codesValid = s.codesValid := rfl
@[simp] theorem complete_errCode (s : State) : (complete s).errCode = s.errCode := rfl
@[simp] theorem complete_errArg0 (s : State) : (complete s).errArg0 = s.errArg0 := rfl
@[simp] theorem complete_errArg1 (s : State) : (complete s).errArg1 = s.errArg1 := rfl
@[simp] theorem complete_errArg2 (s : State) : (complete s).errArg2 = s.errArg2 := rfl
@[simp] theorem complete_inLen (s : State) : (complete s).inLen = s.inLen := rfl
@[simp] theorem complete_outLen (s : State) : (complete s).outLen = s.outLen := rfl
@[simp] theorem complete_freqN (s : State) : (complete s).freqN = s.freqN := rfl
@[simp] theorem complete_nodeN (s : State) : (complete s).nodeN = s.nodeN := rfl
@[simp] theorem complete_root (s : State) : (complete s).root = s.root := rfl
@[simp] theorem complete_codeN (s : State) : (complete s).codeN = s.codeN := rfl
@[simp] theorem complete_treeBits (s : State) : (complete s).treeBits = s.treeBits := rfl
@[simp] theorem complete_payloadBits (s : State) : (complete s).payloadBits = s.payloadBits := rfl
@[simp] theorem complete_stopPos (s : State) : (complete s).stopPos = s.stopPos := rfl
@[simp] theorem complete_ibuf (s : State) : (complete s).ibuf = s.ibuf := rfl
@[simp] theorem complete_obuf (s : State) : (complete s).obuf = s.obuf := rfl
@[simp] theorem complete_freq (s : State) : (complete s).freq = s.freq := rfl
@[simp] theorem complete_node (s : State) : (complete s).node = s.node := rfl
@[simp] theorem complete_code (s : State) : (complete s).code = s.code := rfl
@[simp] theorem complete_rsp (s : State) : (complete s).rsp = s.rsp := rfl
@[simp] theorem complete_pending (s : State) : (complete s).pending = s.pending := rfl
@[simp] theorem complete_busyTurns (s : State) : (complete s).busyTurns = s.busyTurns := rfl
@[simp] theorem complete_draws (s : State) : (complete s).draws = s.draws := rfl

/-! ### errorComplete -/

@[simp] theorem errorComplete_cfg (e : CmdError) (s : State) : (errorComplete e s).cfg = s.cfg := rfl
@[simp] theorem errorComplete_irqEn (e : CmdError) (s : State) : (errorComplete e s).irqEn = s.irqEn := rfl
@[simp] theorem errorComplete_lastCmd (e : CmdError) (s : State) : (errorComplete e s).lastCmd = s.lastCmd := rfl
@[simp] theorem errorComplete_busy (e : CmdError) (s : State) : (errorComplete e s).busy = false := rfl
@[simp] theorem errorComplete_done (e : CmdError) (s : State) : (errorComplete e s).done = true := rfl
@[simp] theorem errorComplete_err (e : CmdError) (s : State) : (errorComplete e s).err = true := rfl
@[simp] theorem errorComplete_haz (e : CmdError) (s : State) : (errorComplete e s).haz = s.haz := rfl
@[simp] theorem errorComplete_treeValid (e : CmdError) (s : State) : (errorComplete e s).treeValid = s.treeValid := rfl
@[simp] theorem errorComplete_codesValid (e : CmdError) (s : State) : (errorComplete e s).codesValid = s.codesValid := rfl
@[simp] theorem errorComplete_errCode (e : CmdError) (s : State) : (errorComplete e s).errCode = e.code := rfl
@[simp] theorem errorComplete_errArg0 (e : CmdError) (s : State) : (errorComplete e s).errArg0 = e.args.1 := rfl
@[simp] theorem errorComplete_errArg1 (e : CmdError) (s : State) : (errorComplete e s).errArg1 = e.args.2.1 := rfl
@[simp] theorem errorComplete_errArg2 (e : CmdError) (s : State) : (errorComplete e s).errArg2 = e.args.2.2 := rfl
@[simp] theorem errorComplete_inLen (e : CmdError) (s : State) : (errorComplete e s).inLen = s.inLen := rfl
@[simp] theorem errorComplete_outLen (e : CmdError) (s : State) : (errorComplete e s).outLen = s.outLen := rfl
@[simp] theorem errorComplete_freqN (e : CmdError) (s : State) : (errorComplete e s).freqN = s.freqN := rfl
@[simp] theorem errorComplete_nodeN (e : CmdError) (s : State) : (errorComplete e s).nodeN = s.nodeN := rfl
@[simp] theorem errorComplete_root (e : CmdError) (s : State) : (errorComplete e s).root = s.root := rfl
@[simp] theorem errorComplete_codeN (e : CmdError) (s : State) : (errorComplete e s).codeN = s.codeN := rfl
@[simp] theorem errorComplete_treeBits (e : CmdError) (s : State) : (errorComplete e s).treeBits = s.treeBits := rfl
@[simp] theorem errorComplete_payloadBits (e : CmdError) (s : State) : (errorComplete e s).payloadBits = s.payloadBits := rfl
@[simp] theorem errorComplete_stopPos (e : CmdError) (s : State) : (errorComplete e s).stopPos = s.stopPos := rfl
@[simp] theorem errorComplete_ibuf (e : CmdError) (s : State) : (errorComplete e s).ibuf = s.ibuf := rfl
@[simp] theorem errorComplete_obuf (e : CmdError) (s : State) : (errorComplete e s).obuf = s.obuf := rfl
@[simp] theorem errorComplete_freq (e : CmdError) (s : State) : (errorComplete e s).freq = s.freq := rfl
@[simp] theorem errorComplete_node (e : CmdError) (s : State) : (errorComplete e s).node = s.node := rfl
@[simp] theorem errorComplete_code (e : CmdError) (s : State) : (errorComplete e s).code = s.code := rfl
@[simp] theorem errorComplete_rsp (e : CmdError) (s : State) : (errorComplete e s).rsp = s.rsp := rfl
@[simp] theorem errorComplete_pending (e : CmdError) (s : State) : (errorComplete e s).pending = s.pending := rfl
@[simp] theorem errorComplete_busyTurns (e : CmdError) (s : State) : (errorComplete e s).busyTurns = s.busyTurns := rfl
@[simp] theorem errorComplete_draws (e : CmdError) (s : State) : (errorComplete e s).draws = s.draws := rfl

/-! ### clearOut -/

@[simp] theorem clearOut_cfg (s : State) : (clearOut s).cfg = s.cfg := rfl
@[simp] theorem clearOut_irqEn (s : State) : (clearOut s).irqEn = s.irqEn := rfl
@[simp] theorem clearOut_lastCmd (s : State) : (clearOut s).lastCmd = s.lastCmd := rfl
@[simp] theorem clearOut_busy (s : State) : (clearOut s).busy = s.busy := rfl
@[simp] theorem clearOut_done (s : State) : (clearOut s).done = s.done := rfl
@[simp] theorem clearOut_err (s : State) : (clearOut s).err = s.err := rfl
@[simp] theorem clearOut_haz (s : State) : (clearOut s).haz = s.haz := rfl
@[simp] theorem clearOut_treeValid (s : State) : (clearOut s).treeValid = s.treeValid := rfl
@[simp] theorem clearOut_codesValid (s : State) : (clearOut s).codesValid = s.codesValid := rfl
@[simp] theorem clearOut_errCode (s : State) : (clearOut s).errCode = s.errCode := rfl
@[simp] theorem clearOut_errArg0 (s : State) : (clearOut s).errArg0 = s.errArg0 := rfl
@[simp] theorem clearOut_errArg1 (s : State) : (clearOut s).errArg1 = s.errArg1 := rfl
@[simp] theorem clearOut_errArg2 (s : State) : (clearOut s).errArg2 = s.errArg2 := rfl
@[simp] theorem clearOut_inLen (s : State) : (clearOut s).inLen = s.inLen := rfl
@[simp] theorem clearOut_outLen (s : State) : (clearOut s).outLen = 0 := rfl
@[simp] theorem clearOut_freqN (s : State) : (clearOut s).freqN = s.freqN := rfl
@[simp] theorem clearOut_nodeN (s : State) : (clearOut s).nodeN = s.nodeN := rfl
@[simp] theorem clearOut_root (s : State) : (clearOut s).root = s.root := rfl
@[simp] theorem clearOut_codeN (s : State) : (clearOut s).codeN = s.codeN := rfl
@[simp] theorem clearOut_treeBits (s : State) : (clearOut s).treeBits = 0 := rfl
@[simp] theorem clearOut_payloadBits (s : State) : (clearOut s).payloadBits = 0 := rfl
@[simp] theorem clearOut_stopPos (s : State) : (clearOut s).stopPos = 0 := rfl
@[simp] theorem clearOut_ibuf (s : State) : (clearOut s).ibuf = s.ibuf := rfl
@[simp] theorem clearOut_obuf (s : State) : (clearOut s).obuf = s.obuf := rfl
@[simp] theorem clearOut_freq (s : State) : (clearOut s).freq = s.freq := rfl
@[simp] theorem clearOut_node (s : State) : (clearOut s).node = s.node := rfl
@[simp] theorem clearOut_code (s : State) : (clearOut s).code = s.code := rfl
@[simp] theorem clearOut_rsp (s : State) : (clearOut s).rsp = s.rsp := rfl
@[simp] theorem clearOut_pending (s : State) : (clearOut s).pending = s.pending := rfl
@[simp] theorem clearOut_busyTurns (s : State) : (clearOut s).busyTurns = s.busyTurns := rfl
@[simp] theorem clearOut_draws (s : State) : (clearOut s).draws = s.draws := rfl

/-! ### clearTree -/

@[simp] theorem clearTree_cfg (s : State) : (clearTree s).cfg = s.cfg := rfl
@[simp] theorem clearTree_irqEn (s : State) : (clearTree s).irqEn = s.irqEn := rfl
@[simp] theorem clearTree_lastCmd (s : State) : (clearTree s).lastCmd = s.lastCmd := rfl
@[simp] theorem clearTree_busy (s : State) : (clearTree s).busy = s.busy := rfl
@[simp] theorem clearTree_done (s : State) : (clearTree s).done = s.done := rfl
@[simp] theorem clearTree_err (s : State) : (clearTree s).err = s.err := rfl
@[simp] theorem clearTree_haz (s : State) : (clearTree s).haz = s.haz := rfl
@[simp] theorem clearTree_treeValid (s : State) : (clearTree s).treeValid = false := rfl
@[simp] theorem clearTree_codesValid (s : State) : (clearTree s).codesValid = false := rfl
@[simp] theorem clearTree_errCode (s : State) : (clearTree s).errCode = s.errCode := rfl
@[simp] theorem clearTree_errArg0 (s : State) : (clearTree s).errArg0 = s.errArg0 := rfl
@[simp] theorem clearTree_errArg1 (s : State) : (clearTree s).errArg1 = s.errArg1 := rfl
@[simp] theorem clearTree_errArg2 (s : State) : (clearTree s).errArg2 = s.errArg2 := rfl
@[simp] theorem clearTree_inLen (s : State) : (clearTree s).inLen = s.inLen := rfl
@[simp] theorem clearTree_outLen (s : State) : (clearTree s).outLen = s.outLen := rfl
@[simp] theorem clearTree_freqN (s : State) : (clearTree s).freqN = s.freqN := rfl
@[simp] theorem clearTree_nodeN (s : State) : (clearTree s).nodeN = 0 := rfl
@[simp] theorem clearTree_root (s : State) : (clearTree s).root = NIL := rfl
@[simp] theorem clearTree_codeN (s : State) : (clearTree s).codeN = 0 := rfl
@[simp] theorem clearTree_treeBits (s : State) : (clearTree s).treeBits = s.treeBits := rfl
@[simp] theorem clearTree_payloadBits (s : State) : (clearTree s).payloadBits = s.payloadBits := rfl
@[simp] theorem clearTree_stopPos (s : State) : (clearTree s).stopPos = s.stopPos := rfl
@[simp] theorem clearTree_ibuf (s : State) : (clearTree s).ibuf = s.ibuf := rfl
@[simp] theorem clearTree_obuf (s : State) : (clearTree s).obuf = s.obuf := rfl
@[simp] theorem clearTree_freq (s : State) : (clearTree s).freq = s.freq := rfl
@[simp] theorem clearTree_node (s : State) : (clearTree s).node = s.node := rfl
@[simp] theorem clearTree_code (s : State) : (clearTree s).code = s.code := rfl
@[simp] theorem clearTree_rsp (s : State) : (clearTree s).rsp = s.rsp := rfl
@[simp] theorem clearTree_pending (s : State) : (clearTree s).pending = s.pending := rfl
@[simp] theorem clearTree_busyTurns (s : State) : (clearTree s).busyTurns = s.busyTurns := rfl
@[simp] theorem clearTree_draws (s : State) : (clearTree s).draws = s.draws := rfl

/-! ### clearCodes -/

@[simp] theorem clearCodes_cfg (s : State) : (clearCodes s).cfg = s.cfg := rfl
@[simp] theorem clearCodes_irqEn (s : State) : (clearCodes s).irqEn = s.irqEn := rfl
@[simp] theorem clearCodes_lastCmd (s : State) : (clearCodes s).lastCmd = s.lastCmd := rfl
@[simp] theorem clearCodes_busy (s : State) : (clearCodes s).busy = s.busy := rfl
@[simp] theorem clearCodes_done (s : State) : (clearCodes s).done = s.done := rfl
@[simp] theorem clearCodes_err (s : State) : (clearCodes s).err = s.err := rfl
@[simp] theorem clearCodes_haz (s : State) : (clearCodes s).haz = s.haz := rfl
@[simp] theorem clearCodes_treeValid (s : State) : (clearCodes s).treeValid = s.treeValid := rfl
@[simp] theorem clearCodes_codesValid (s : State) : (clearCodes s).codesValid = false := rfl
@[simp] theorem clearCodes_errCode (s : State) : (clearCodes s).errCode = s.errCode := rfl
@[simp] theorem clearCodes_errArg0 (s : State) : (clearCodes s).errArg0 = s.errArg0 := rfl
@[simp] theorem clearCodes_errArg1 (s : State) : (clearCodes s).errArg1 = s.errArg1 := rfl
@[simp] theorem clearCodes_errArg2 (s : State) : (clearCodes s).errArg2 = s.errArg2 := rfl
@[simp] theorem clearCodes_inLen (s : State) : (clearCodes s).inLen = s.inLen := rfl
@[simp] theorem clearCodes_outLen (s : State) : (clearCodes s).outLen = s.outLen := rfl
@[simp] theorem clearCodes_freqN (s : State) : (clearCodes s).freqN = s.freqN := rfl
@[simp] theorem clearCodes_nodeN (s : State) : (clearCodes s).nodeN = s.nodeN := rfl
@[simp] theorem clearCodes_root (s : State) : (clearCodes s).root = s.root := rfl
@[simp] theorem clearCodes_codeN (s : State) : (clearCodes s).codeN = 0 := rfl
@[simp] theorem clearCodes_treeBits (s : State) : (clearCodes s).treeBits = s.treeBits := rfl
@[simp] theorem clearCodes_payloadBits (s : State) : (clearCodes s).payloadBits = s.payloadBits := rfl
@[simp] theorem clearCodes_stopPos (s : State) : (clearCodes s).stopPos = s.stopPos := rfl
@[simp] theorem clearCodes_ibuf (s : State) : (clearCodes s).ibuf = s.ibuf := rfl
@[simp] theorem clearCodes_obuf (s : State) : (clearCodes s).obuf = s.obuf := rfl
@[simp] theorem clearCodes_freq (s : State) : (clearCodes s).freq = s.freq := rfl
@[simp] theorem clearCodes_node (s : State) : (clearCodes s).node = s.node := rfl
@[simp] theorem clearCodes_code (s : State) : (clearCodes s).code = s.code := rfl
@[simp] theorem clearCodes_rsp (s : State) : (clearCodes s).rsp = s.rsp := rfl
@[simp] theorem clearCodes_pending (s : State) : (clearCodes s).pending = s.pending := rfl
@[simp] theorem clearCodes_busyTurns (s : State) : (clearCodes s).busyTurns = s.busyTurns := rfl
@[simp] theorem clearCodes_draws (s : State) : (clearCodes s).draws = s.draws := rfl

/-! ### setHaz -/

@[simp] theorem setHaz_cfg (s : State) : (setHaz s).cfg = s.cfg := rfl
@[simp] theorem setHaz_irqEn (s : State) : (setHaz s).irqEn = s.irqEn := rfl
@[simp] theorem setHaz_lastCmd (s : State) : (setHaz s).lastCmd = s.lastCmd := rfl
@[simp] theorem setHaz_busy (s : State) : (setHaz s).busy = s.busy := rfl
@[simp] theorem setHaz_done (s : State) : (setHaz s).done = s.done := rfl
@[simp] theorem setHaz_err (s : State) : (setHaz s).err = s.err := rfl
@[simp] theorem setHaz_haz (s : State) : (setHaz s).haz = true := rfl
@[simp] theorem setHaz_treeValid (s : State) : (setHaz s).treeValid = s.treeValid := rfl
@[simp] theorem setHaz_codesValid (s : State) : (setHaz s).codesValid = s.codesValid := rfl
@[simp] theorem setHaz_errCode (s : State) : (setHaz s).errCode = s.errCode := rfl
@[simp] theorem setHaz_errArg0 (s : State) : (setHaz s).errArg0 = s.errArg0 := rfl
@[simp] theorem setHaz_errArg1 (s : State) : (setHaz s).errArg1 = s.errArg1 := rfl
@[simp] theorem setHaz_errArg2 (s : State) : (setHaz s).errArg2 = s.errArg2 := rfl
@[simp] theorem setHaz_inLen (s : State) : (setHaz s).inLen = s.inLen := rfl
@[simp] theorem setHaz_outLen (s : State) : (setHaz s).outLen = s.outLen := rfl
@[simp] theorem setHaz_freqN (s : State) : (setHaz s).freqN = s.freqN := rfl
@[simp] theorem setHaz_nodeN (s : State) : (setHaz s).nodeN = s.nodeN := rfl
@[simp] theorem setHaz_root (s : State) : (setHaz s).root = s.root := rfl
@[simp] theorem setHaz_codeN (s : State) : (setHaz s).codeN = s.codeN := rfl
@[simp] theorem setHaz_treeBits (s : State) : (setHaz s).treeBits = s.treeBits := rfl
@[simp] theorem setHaz_payloadBits (s : State) : (setHaz s).payloadBits = s.payloadBits := rfl
@[simp] theorem setHaz_stopPos (s : State) : (setHaz s).stopPos = s.stopPos := rfl
@[simp] theorem setHaz_ibuf (s : State) : (setHaz s).ibuf = s.ibuf := rfl
@[simp] theorem setHaz_obuf (s : State) : (setHaz s).obuf = s.obuf := rfl
@[simp] theorem setHaz_freq (s : State) : (setHaz s).freq = s.freq := rfl
@[simp] theorem setHaz_node (s : State) : (setHaz s).node = s.node := rfl
@[simp] theorem setHaz_code (s : State) : (setHaz s).code = s.code := rfl
@[simp] theorem setHaz_rsp (s : State) : (setHaz s).rsp = s.rsp := rfl
@[simp] theorem setHaz_pending (s : State) : (setHaz s).pending = s.pending := rfl
@[simp] theorem setHaz_busyTurns (s : State) : (setHaz s).busyTurns = s.busyTurns := rfl
@[simp] theorem setHaz_draws (s : State) : (setHaz s).draws = s.draws := rfl

/-! ### ackStatus -/

@[simp] theorem ackStatus_cfg (v : Word) (s : State) : (ackStatus v s).cfg = s.cfg := rfl
@[simp] theorem ackStatus_irqEn (v : Word) (s : State) : (ackStatus v s).irqEn = s.irqEn := rfl
@[simp] theorem ackStatus_lastCmd (v : Word) (s : State) : (ackStatus v s).lastCmd = s.lastCmd := rfl
@[simp] theorem ackStatus_busy (v : Word) (s : State) : (ackStatus v s).busy = s.busy := rfl
@[simp] theorem ackStatus_done (v : Word) (s : State) : (ackStatus v s).done = (s.done && !v.getLsbD 1) := rfl
@[simp] theorem ackStatus_err (v : Word) (s : State) : (ackStatus v s).err = (s.err && !v.getLsbD 2) := rfl
@[simp] theorem ackStatus_haz (v : Word) (s : State) : (ackStatus v s).haz = (s.haz && !v.getLsbD 3) := rfl
@[simp] theorem ackStatus_treeValid (v : Word) (s : State) : (ackStatus v s).treeValid = s.treeValid := rfl
@[simp] theorem ackStatus_codesValid (v : Word) (s : State) : (ackStatus v s).codesValid = s.codesValid := rfl
@[simp] theorem ackStatus_errCode (v : Word) (s : State) : (ackStatus v s).errCode = s.errCode := rfl
@[simp] theorem ackStatus_errArg0 (v : Word) (s : State) : (ackStatus v s).errArg0 = s.errArg0 := rfl
@[simp] theorem ackStatus_errArg1 (v : Word) (s : State) : (ackStatus v s).errArg1 = s.errArg1 := rfl
@[simp] theorem ackStatus_errArg2 (v : Word) (s : State) : (ackStatus v s).errArg2 = s.errArg2 := rfl
@[simp] theorem ackStatus_inLen (v : Word) (s : State) : (ackStatus v s).inLen = s.inLen := rfl
@[simp] theorem ackStatus_outLen (v : Word) (s : State) : (ackStatus v s).outLen = s.outLen := rfl
@[simp] theorem ackStatus_freqN (v : Word) (s : State) : (ackStatus v s).freqN = s.freqN := rfl
@[simp] theorem ackStatus_nodeN (v : Word) (s : State) : (ackStatus v s).nodeN = s.nodeN := rfl
@[simp] theorem ackStatus_root (v : Word) (s : State) : (ackStatus v s).root = s.root := rfl
@[simp] theorem ackStatus_codeN (v : Word) (s : State) : (ackStatus v s).codeN = s.codeN := rfl
@[simp] theorem ackStatus_treeBits (v : Word) (s : State) : (ackStatus v s).treeBits = s.treeBits := rfl
@[simp] theorem ackStatus_payloadBits (v : Word) (s : State) : (ackStatus v s).payloadBits = s.payloadBits := rfl
@[simp] theorem ackStatus_stopPos (v : Word) (s : State) : (ackStatus v s).stopPos = s.stopPos := rfl
@[simp] theorem ackStatus_ibuf (v : Word) (s : State) : (ackStatus v s).ibuf = s.ibuf := rfl
@[simp] theorem ackStatus_obuf (v : Word) (s : State) : (ackStatus v s).obuf = s.obuf := rfl
@[simp] theorem ackStatus_freq (v : Word) (s : State) : (ackStatus v s).freq = s.freq := rfl
@[simp] theorem ackStatus_node (v : Word) (s : State) : (ackStatus v s).node = s.node := rfl
@[simp] theorem ackStatus_code (v : Word) (s : State) : (ackStatus v s).code = s.code := rfl
@[simp] theorem ackStatus_rsp (v : Word) (s : State) : (ackStatus v s).rsp = s.rsp := rfl
@[simp] theorem ackStatus_pending (v : Word) (s : State) : (ackStatus v s).pending = s.pending := rfl
@[simp] theorem ackStatus_busyTurns (v : Word) (s : State) : (ackStatus v s).busyTurns = s.busyTurns := rfl
@[simp] theorem ackStatus_draws (v : Word) (s : State) : (ackStatus v s).draws = s.draws := rfl

/-! ### writeCtrl -/

@[simp] theorem writeCtrl_cfg (v : Word) (s : State) : (writeCtrl v s).cfg = s.cfg := rfl
@[simp] theorem writeCtrl_irqEn (v : Word) (s : State) : (writeCtrl v s).irqEn = v.getLsbD 0 := rfl
@[simp] theorem writeCtrl_lastCmd (v : Word) (s : State) : (writeCtrl v s).lastCmd = s.lastCmd := rfl
@[simp] theorem writeCtrl_busy (v : Word) (s : State) : (writeCtrl v s).busy = s.busy := rfl
@[simp] theorem writeCtrl_done (v : Word) (s : State) : (writeCtrl v s).done = s.done := rfl
@[simp] theorem writeCtrl_err (v : Word) (s : State) : (writeCtrl v s).err = s.err := rfl
@[simp] theorem writeCtrl_haz (v : Word) (s : State) : (writeCtrl v s).haz = s.haz := rfl
@[simp] theorem writeCtrl_treeValid (v : Word) (s : State) : (writeCtrl v s).treeValid = s.treeValid := rfl
@[simp] theorem writeCtrl_codesValid (v : Word) (s : State) : (writeCtrl v s).codesValid = s.codesValid := rfl
@[simp] theorem writeCtrl_errCode (v : Word) (s : State) : (writeCtrl v s).errCode = s.errCode := rfl
@[simp] theorem writeCtrl_errArg0 (v : Word) (s : State) : (writeCtrl v s).errArg0 = s.errArg0 := rfl
@[simp] theorem writeCtrl_errArg1 (v : Word) (s : State) : (writeCtrl v s).errArg1 = s.errArg1 := rfl
@[simp] theorem writeCtrl_errArg2 (v : Word) (s : State) : (writeCtrl v s).errArg2 = s.errArg2 := rfl
@[simp] theorem writeCtrl_inLen (v : Word) (s : State) : (writeCtrl v s).inLen = s.inLen := rfl
@[simp] theorem writeCtrl_outLen (v : Word) (s : State) : (writeCtrl v s).outLen = s.outLen := rfl
@[simp] theorem writeCtrl_freqN (v : Word) (s : State) : (writeCtrl v s).freqN = s.freqN := rfl
@[simp] theorem writeCtrl_nodeN (v : Word) (s : State) : (writeCtrl v s).nodeN = s.nodeN := rfl
@[simp] theorem writeCtrl_root (v : Word) (s : State) : (writeCtrl v s).root = s.root := rfl
@[simp] theorem writeCtrl_codeN (v : Word) (s : State) : (writeCtrl v s).codeN = s.codeN := rfl
@[simp] theorem writeCtrl_treeBits (v : Word) (s : State) : (writeCtrl v s).treeBits = s.treeBits := rfl
@[simp] theorem writeCtrl_payloadBits (v : Word) (s : State) : (writeCtrl v s).payloadBits = s.payloadBits := rfl
@[simp] theorem writeCtrl_stopPos (v : Word) (s : State) : (writeCtrl v s).stopPos = s.stopPos := rfl
@[simp] theorem writeCtrl_ibuf (v : Word) (s : State) : (writeCtrl v s).ibuf = s.ibuf := rfl
@[simp] theorem writeCtrl_obuf (v : Word) (s : State) : (writeCtrl v s).obuf = s.obuf := rfl
@[simp] theorem writeCtrl_freq (v : Word) (s : State) : (writeCtrl v s).freq = s.freq := rfl
@[simp] theorem writeCtrl_node (v : Word) (s : State) : (writeCtrl v s).node = s.node := rfl
@[simp] theorem writeCtrl_code (v : Word) (s : State) : (writeCtrl v s).code = s.code := rfl
@[simp] theorem writeCtrl_rsp (v : Word) (s : State) : (writeCtrl v s).rsp = s.rsp := rfl
@[simp] theorem writeCtrl_pending (v : Word) (s : State) : (writeCtrl v s).pending = s.pending := rfl
@[simp] theorem writeCtrl_busyTurns (v : Word) (s : State) : (writeCtrl v s).busyTurns = s.busyTurns := rfl
@[simp] theorem writeCtrl_draws (v : Word) (s : State) : (writeCtrl v s).draws = s.draws := rfl

/-! ### clearBody -/

@[simp] theorem clearBody_cfg (s : State) : (clearBody s).cfg = s.cfg := rfl
@[simp] theorem clearBody_irqEn (s : State) : (clearBody s).irqEn = s.irqEn := rfl
@[simp] theorem clearBody_lastCmd (s : State) : (clearBody s).lastCmd = s.lastCmd := rfl
@[simp] theorem clearBody_busy (s : State) : (clearBody s).busy = s.busy := rfl
@[simp] theorem clearBody_done (s : State) : (clearBody s).done = s.done := rfl
@[simp] theorem clearBody_err (s : State) : (clearBody s).err = s.err := rfl
@[simp] theorem clearBody_haz (s : State) : (clearBody s).haz = s.haz := rfl
@[simp] theorem clearBody_treeValid (s : State) : (clearBody s).treeValid = false := rfl
@[simp] theorem clearBody_codesValid (s : State) : (clearBody s).codesValid = false := rfl
@[simp] theorem clearBody_errCode (s : State) : (clearBody s).errCode = s.errCode := rfl
@[simp] theorem clearBody_errArg0 (s : State) : (clearBody s).errArg0 = s.errArg0 := rfl
@[simp] theorem clearBody_errArg1 (s : State) : (clearBody s).errArg1 = s.errArg1 := rfl
@[simp] theorem clearBody_errArg2 (s : State) : (clearBody s).errArg2 = s.errArg2 := rfl
@[simp] theorem clearBody_inLen (s : State) : (clearBody s).inLen = s.inLen := rfl
@[simp] theorem clearBody_outLen (s : State) : (clearBody s).outLen = 0 := rfl
@[simp] theorem clearBody_freqN (s : State) : (clearBody s).freqN = 0 := rfl
@[simp] theorem clearBody_nodeN (s : State) : (clearBody s).nodeN = 0 := rfl
@[simp] theorem clearBody_root (s : State) : (clearBody s).root = NIL := rfl
@[simp] theorem clearBody_codeN (s : State) : (clearBody s).codeN = 0 := rfl
@[simp] theorem clearBody_treeBits (s : State) : (clearBody s).treeBits = 0 := rfl
@[simp] theorem clearBody_payloadBits (s : State) : (clearBody s).payloadBits = 0 := rfl
@[simp] theorem clearBody_stopPos (s : State) : (clearBody s).stopPos = 0 := rfl
@[simp] theorem clearBody_ibuf (s : State) : (clearBody s).ibuf = s.ibuf := rfl
@[simp] theorem clearBody_obuf (s : State) : (clearBody s).obuf = s.obuf := rfl
@[simp] theorem clearBody_freq (s : State) : (clearBody s).freq = s.freq := rfl
@[simp] theorem clearBody_node (s : State) : (clearBody s).node = s.node := rfl
@[simp] theorem clearBody_code (s : State) : (clearBody s).code = s.code := rfl
@[simp] theorem clearBody_rsp (s : State) : (clearBody s).rsp = s.rsp := rfl
@[simp] theorem clearBody_pending (s : State) : (clearBody s).pending = s.pending := rfl
@[simp] theorem clearBody_busyTurns (s : State) : (clearBody s).busyTurns = s.busyTurns := rfl
@[simp] theorem clearBody_draws (s : State) : (clearBody s).draws = s.draws := rfl

/-! ### installFreq -/

@[simp] theorem installFreq_cfg (tab : List FreqEntry) (s : State) : (installFreq tab s).cfg = s.cfg := rfl
@[simp] theorem installFreq_irqEn (tab : List FreqEntry) (s : State) : (installFreq tab s).irqEn = s.irqEn := rfl
@[simp] theorem installFreq_lastCmd (tab : List FreqEntry) (s : State) : (installFreq tab s).lastCmd = s.lastCmd := rfl
@[simp] theorem installFreq_busy (tab : List FreqEntry) (s : State) : (installFreq tab s).busy = s.busy := rfl
@[simp] theorem installFreq_done (tab : List FreqEntry) (s : State) : (installFreq tab s).done = s.done := rfl
@[simp] theorem installFreq_err (tab : List FreqEntry) (s : State) : (installFreq tab s).err = s.err := rfl
@[simp] theorem installFreq_haz (tab : List FreqEntry) (s : State) : (installFreq tab s).haz = s.haz := rfl
@[simp] theorem installFreq_treeValid (tab : List FreqEntry) (s : State) : (installFreq tab s).treeValid = s.treeValid := rfl
@[simp] theorem installFreq_codesValid (tab : List FreqEntry) (s : State) : (installFreq tab s).codesValid = s.codesValid := rfl
@[simp] theorem installFreq_errCode (tab : List FreqEntry) (s : State) : (installFreq tab s).errCode = s.errCode := rfl
@[simp] theorem installFreq_errArg0 (tab : List FreqEntry) (s : State) : (installFreq tab s).errArg0 = s.errArg0 := rfl
@[simp] theorem installFreq_errArg1 (tab : List FreqEntry) (s : State) : (installFreq tab s).errArg1 = s.errArg1 := rfl
@[simp] theorem installFreq_errArg2 (tab : List FreqEntry) (s : State) : (installFreq tab s).errArg2 = s.errArg2 := rfl
@[simp] theorem installFreq_inLen (tab : List FreqEntry) (s : State) : (installFreq tab s).inLen = s.inLen := rfl
@[simp] theorem installFreq_outLen (tab : List FreqEntry) (s : State) : (installFreq tab s).outLen = s.outLen := rfl
@[simp] theorem installFreq_freqN (tab : List FreqEntry) (s : State) : (installFreq tab s).freqN = BitVec.ofNat 32 tab.length := rfl
@[simp] theorem installFreq_nodeN (tab : List FreqEntry) (s : State) : (installFreq tab s).nodeN = s.nodeN := rfl
@[simp] theorem installFreq_root (tab : List FreqEntry) (s : State) : (installFreq tab s).root = s.root := rfl
@[simp] theorem installFreq_codeN (tab : List FreqEntry) (s : State) : (installFreq tab s).codeN = s.codeN := rfl
@[simp] theorem installFreq_treeBits (tab : List FreqEntry) (s : State) : (installFreq tab s).treeBits = s.treeBits := rfl
@[simp] theorem installFreq_payloadBits (tab : List FreqEntry) (s : State) : (installFreq tab s).payloadBits = s.payloadBits := rfl
@[simp] theorem installFreq_stopPos (tab : List FreqEntry) (s : State) : (installFreq tab s).stopPos = s.stopPos := rfl
@[simp] theorem installFreq_ibuf (tab : List FreqEntry) (s : State) : (installFreq tab s).ibuf = s.ibuf := rfl
@[simp] theorem installFreq_obuf (tab : List FreqEntry) (s : State) : (installFreq tab s).obuf = s.obuf := rfl
@[simp] theorem installFreq_freq (tab : List FreqEntry) (s : State) : (installFreq tab s).freq = Memory.ofWords (tab.flatMap FreqEntry.words) := rfl
@[simp] theorem installFreq_node (tab : List FreqEntry) (s : State) : (installFreq tab s).node = s.node := rfl
@[simp] theorem installFreq_code (tab : List FreqEntry) (s : State) : (installFreq tab s).code = s.code := rfl
@[simp] theorem installFreq_rsp (tab : List FreqEntry) (s : State) : (installFreq tab s).rsp = s.rsp := rfl
@[simp] theorem installFreq_pending (tab : List FreqEntry) (s : State) : (installFreq tab s).pending = s.pending := rfl
@[simp] theorem installFreq_busyTurns (tab : List FreqEntry) (s : State) : (installFreq tab s).busyTurns = s.busyTurns := rfl
@[simp] theorem installFreq_draws (tab : List FreqEntry) (s : State) : (installFreq tab s).draws = s.draws := rfl

/-! ### installTree -/

@[simp] theorem installTree_cfg (ns : List Node) (r : Nat) (s : State) : (installTree ns r s).cfg = s.cfg := rfl
@[simp] theorem installTree_irqEn (ns : List Node) (r : Nat) (s : State) : (installTree ns r s).irqEn = s.irqEn := rfl
@[simp] theorem installTree_lastCmd (ns : List Node) (r : Nat) (s : State) : (installTree ns r s).lastCmd = s.lastCmd := rfl
@[simp] theorem installTree_busy (ns : List Node) (r : Nat) (s : State) : (installTree ns r s).busy = s.busy := rfl
@[simp] theorem installTree_done (ns : List Node) (r : Nat) (s : State) : (installTree ns r s).done = s.done := rfl
@[simp] theorem installTree_err (ns : List Node) (r : Nat) (s : State) : (installTree ns r s).err = s.err := rfl
@[simp] theorem installTree_haz (ns : List Node) (r : Nat) (s : State) : (installTree ns r s).haz = s.haz := rfl
@[simp] theorem installTree_treeValid (ns : List Node) (r : Nat) (s : State) : (installTree ns r s).treeValid = true := rfl
@[simp] theorem installTree_codesValid (ns : List Node) (r : Nat) (s : State) : (installTree ns r s).codesValid = s.codesValid := rfl
@[simp] theorem installTree_errCode (ns : List Node) (r : Nat) (s : State) : (installTree ns r s).errCode = s.errCode := rfl
@[simp] theorem installTree_errArg0 (ns : List Node) (r : Nat) (s : State) : (installTree ns r s).errArg0 = s.errArg0 := rfl
@[simp] theorem installTree_errArg1 (ns : List Node) (r : Nat) (s : State) : (installTree ns r s).errArg1 = s.errArg1 := rfl
@[simp] theorem installTree_errArg2 (ns : List Node) (r : Nat) (s : State) : (installTree ns r s).errArg2 = s.errArg2 := rfl
@[simp] theorem installTree_inLen (ns : List Node) (r : Nat) (s : State) : (installTree ns r s).inLen = s.inLen := rfl
@[simp] theorem installTree_outLen (ns : List Node) (r : Nat) (s : State) : (installTree ns r s).outLen = s.outLen := rfl
@[simp] theorem installTree_freqN (ns : List Node) (r : Nat) (s : State) : (installTree ns r s).freqN = s.freqN := rfl
@[simp] theorem installTree_nodeN (ns : List Node) (r : Nat) (s : State) : (installTree ns r s).nodeN = BitVec.ofNat 32 ns.length := rfl
@[simp] theorem installTree_root (ns : List Node) (r : Nat) (s : State) : (installTree ns r s).root = BitVec.ofNat 32 r := rfl
@[simp] theorem installTree_codeN (ns : List Node) (r : Nat) (s : State) : (installTree ns r s).codeN = s.codeN := rfl
@[simp] theorem installTree_treeBits (ns : List Node) (r : Nat) (s : State) : (installTree ns r s).treeBits = s.treeBits := rfl
@[simp] theorem installTree_payloadBits (ns : List Node) (r : Nat) (s : State) : (installTree ns r s).payloadBits = s.payloadBits := rfl
@[simp] theorem installTree_stopPos (ns : List Node) (r : Nat) (s : State) : (installTree ns r s).stopPos = s.stopPos := rfl
@[simp] theorem installTree_ibuf (ns : List Node) (r : Nat) (s : State) : (installTree ns r s).ibuf = s.ibuf := rfl
@[simp] theorem installTree_obuf (ns : List Node) (r : Nat) (s : State) : (installTree ns r s).obuf = s.obuf := rfl
@[simp] theorem installTree_freq (ns : List Node) (r : Nat) (s : State) : (installTree ns r s).freq = s.freq := rfl
@[simp] theorem installTree_node (ns : List Node) (r : Nat) (s : State) : (installTree ns r s).node = Memory.ofWords (ns.flatMap Node.words) := rfl
@[simp] theorem installTree_code (ns : List Node) (r : Nat) (s : State) : (installTree ns r s).code = s.code := rfl
@[simp] theorem installTree_rsp (ns : List Node) (r : Nat) (s : State) : (installTree ns r s).rsp = s.rsp := rfl
@[simp] theorem installTree_pending (ns : List Node) (r : Nat) (s : State) : (installTree ns r s).pending = s.pending := rfl
@[simp] theorem installTree_busyTurns (ns : List Node) (r : Nat) (s : State) : (installTree ns r s).busyTurns = s.busyTurns := rfl
@[simp] theorem installTree_draws (ns : List Node) (r : Nat) (s : State) : (installTree ns r s).draws = s.draws := rfl

/-! ### installCodes -/

@[simp] theorem installCodes_cfg (cs : List CodeEntry) (s : State) : (installCodes cs s).cfg = s.cfg := rfl
@[simp] theorem installCodes_irqEn (cs : List CodeEntry) (s : State) : (installCodes cs s).irqEn = s.irqEn := rfl
@[simp] theorem installCodes_lastCmd (cs : List CodeEntry) (s : State) : (installCodes cs s).lastCmd = s.lastCmd := rfl
@[simp] theorem installCodes_busy (cs : List CodeEntry) (s : State) : (installCodes cs s).busy = s.busy := rfl
@[simp] theorem installCodes_done (cs : List CodeEntry) (s : State) : (installCodes cs s).done = s.done := rfl
@[simp] theorem installCodes_err (cs : List CodeEntry) (s : State) : (installCodes cs s).err = s.err := rfl
@[simp] theorem installCodes_haz (cs : List CodeEntry) (s : State) : (installCodes cs s).haz = s.haz := rfl
@[simp] theorem installCodes_treeValid (cs : List CodeEntry) (s : State) : (installCodes cs s).treeValid = s.treeValid := rfl
@[simp] theorem installCodes_codesValid (cs : List CodeEntry) (s : State) : (installCodes cs s).codesValid = true := rfl
@[simp] theorem installCodes_errCode (cs : List CodeEntry) (s : State) : (installCodes cs s).errCode = s.errCode := rfl
@[simp] theorem installCodes_errArg0 (cs : List CodeEntry) (s : State) : (installCodes cs s).errArg0 = s.errArg0 := rfl
@[simp] theorem installCodes_errArg1 (cs : List CodeEntry) (s : State) : (installCodes cs s).errArg1 = s.errArg1 := rfl
@[simp] theorem installCodes_errArg2 (cs : List CodeEntry) (s : State) : (installCodes cs s).errArg2 = s.errArg2 := rfl
@[simp] theorem installCodes_inLen (cs : List CodeEntry) (s : State) : (installCodes cs s).inLen = s.inLen := rfl
@[simp] theorem installCodes_outLen (cs : List CodeEntry) (s : State) : (installCodes cs s).outLen = s.outLen := rfl
@[simp] theorem installCodes_freqN (cs : List CodeEntry) (s : State) : (installCodes cs s).freqN = s.freqN := rfl
@[simp] theorem installCodes_nodeN (cs : List CodeEntry) (s : State) : (installCodes cs s).nodeN = s.nodeN := rfl
@[simp] theorem installCodes_root (cs : List CodeEntry) (s : State) : (installCodes cs s).root = s.root := rfl
@[simp] theorem installCodes_codeN (cs : List CodeEntry) (s : State) : (installCodes cs s).codeN = BitVec.ofNat 32 cs.length := rfl
@[simp] theorem installCodes_treeBits (cs : List CodeEntry) (s : State) : (installCodes cs s).treeBits = s.treeBits := rfl
@[simp] theorem installCodes_payloadBits (cs : List CodeEntry) (s : State) : (installCodes cs s).payloadBits = s.payloadBits := rfl
@[simp] theorem installCodes_stopPos (cs : List CodeEntry) (s : State) : (installCodes cs s).stopPos = s.stopPos := rfl
@[simp] theorem installCodes_ibuf (cs : List CodeEntry) (s : State) : (installCodes cs s).ibuf = s.ibuf := rfl
@[simp] theorem installCodes_obuf (cs : List CodeEntry) (s : State) : (installCodes cs s).obuf = s.obuf := rfl
@[simp] theorem installCodes_freq (cs : List CodeEntry) (s : State) : (installCodes cs s).freq = s.freq := rfl
@[simp] theorem installCodes_node (cs : List CodeEntry) (s : State) : (installCodes cs s).node = s.node := rfl
@[simp] theorem installCodes_code (cs : List CodeEntry) (s : State) : (installCodes cs s).code = Memory.ofWords (cs.flatMap CodeEntry.words) := rfl
@[simp] theorem installCodes_rsp (cs : List CodeEntry) (s : State) : (installCodes cs s).rsp = s.rsp := rfl
@[simp] theorem installCodes_pending (cs : List CodeEntry) (s : State) : (installCodes cs s).pending = s.pending := rfl
@[simp] theorem installCodes_busyTurns (cs : List CodeEntry) (s : State) : (installCodes cs s).busyTurns = s.busyTurns := rfl
@[simp] theorem installCodes_draws (cs : List CodeEntry) (s : State) : (installCodes cs s).draws = s.draws := rfl

/-! ### installStream -/

@[simp] theorem installStream_cfg (r : Stream) (s : State) : (installStream r s).cfg = s.cfg := rfl
@[simp] theorem installStream_irqEn (r : Stream) (s : State) : (installStream r s).irqEn = s.irqEn := rfl
@[simp] theorem installStream_lastCmd (r : Stream) (s : State) : (installStream r s).lastCmd = s.lastCmd := rfl
@[simp] theorem installStream_busy (r : Stream) (s : State) : (installStream r s).busy = s.busy := rfl
@[simp] theorem installStream_done (r : Stream) (s : State) : (installStream r s).done = s.done := rfl
@[simp] theorem installStream_err (r : Stream) (s : State) : (installStream r s).err = s.err := rfl
@[simp] theorem installStream_haz (r : Stream) (s : State) : (installStream r s).haz = s.haz := rfl
@[simp] theorem installStream_treeValid (r : Stream) (s : State) : (installStream r s).treeValid = s.treeValid := rfl
@[simp] theorem installStream_codesValid (r : Stream) (s : State) : (installStream r s).codesValid = s.codesValid := rfl
@[simp] theorem installStream_errCode (r : Stream) (s : State) : (installStream r s).errCode = s.errCode := rfl
@[simp] theorem installStream_errArg0 (r : Stream) (s : State) : (installStream r s).errArg0 = s.errArg0 := rfl
@[simp] theorem installStream_errArg1 (r : Stream) (s : State) : (installStream r s).errArg1 = s.errArg1 := rfl
@[simp] theorem installStream_errArg2 (r : Stream) (s : State) : (installStream r s).errArg2 = s.errArg2 := rfl
@[simp] theorem installStream_inLen (r : Stream) (s : State) : (installStream r s).inLen = s.inLen := rfl
@[simp] theorem installStream_outLen (r : Stream) (s : State) : (installStream r s).outLen = BitVec.ofNat 32 r.bytes.length := rfl
@[simp] theorem installStream_freqN (r : Stream) (s : State) : (installStream r s).freqN = s.freqN := rfl
@[simp] theorem installStream_nodeN (r : Stream) (s : State) : (installStream r s).nodeN = s.nodeN := rfl
@[simp] theorem installStream_root (r : Stream) (s : State) : (installStream r s).root = s.root := rfl
@[simp] theorem installStream_codeN (r : Stream) (s : State) : (installStream r s).codeN = s.codeN := rfl
@[simp] theorem installStream_treeBits (r : Stream) (s : State) : (installStream r s).treeBits = BitVec.ofNat 32 r.treeLen := rfl
@[simp] theorem installStream_payloadBits (r : Stream) (s : State) : (installStream r s).payloadBits = BitVec.ofNat 32 r.payloadLen := rfl
@[simp] theorem installStream_stopPos (r : Stream) (s : State) : (installStream r s).stopPos = BitVec.ofNat 32 (r.treeLen + r.payloadLen) := rfl
@[simp] theorem installStream_ibuf (r : Stream) (s : State) : (installStream r s).ibuf = s.ibuf := rfl
@[simp] theorem installStream_obuf (r : Stream) (s : State) : (installStream r s).obuf = s.obuf.writeWords 0 (r.bytes.map (fun b => b.setWidth 32)) := rfl
@[simp] theorem installStream_freq (r : Stream) (s : State) : (installStream r s).freq = s.freq := rfl
@[simp] theorem installStream_node (r : Stream) (s : State) : (installStream r s).node = s.node := rfl
@[simp] theorem installStream_code (r : Stream) (s : State) : (installStream r s).code = s.code := rfl
@[simp] theorem installStream_rsp (r : Stream) (s : State) : (installStream r s).rsp = s.rsp := rfl
@[simp] theorem installStream_pending (r : Stream) (s : State) : (installStream r s).pending = s.pending := rfl
@[simp] theorem installStream_busyTurns (r : Stream) (s : State) : (installStream r s).busyTurns = s.busyTurns := rfl
@[simp] theorem installStream_draws (r : Stream) (s : State) : (installStream r s).draws = s.draws := rfl

/-! ### scramble and setWin -/

@[simp] theorem scramble_cfg (w : Win) (s : State) : (scramble w s).cfg = s.cfg := by cases w <;> rfl
@[simp] theorem setWin_cfg (w : Win) (m : Memory) (s : State) : (s.setWin w m).cfg = s.cfg := by cases w <;> rfl
@[simp] theorem scramble_irqEn (w : Win) (s : State) : (scramble w s).irqEn = s.irqEn := by cases w <;> rfl
@[simp] theorem setWin_irqEn (w : Win) (m : Memory) (s : State) : (s.setWin w m).irqEn = s.irqEn := by cases w <;> rfl
@[simp] theorem scramble_lastCmd (w : Win) (s : State) : (scramble w s).lastCmd = s.lastCmd := by cases w <;> rfl
@[simp] theorem setWin_lastCmd (w : Win) (m : Memory) (s : State) : (s.setWin w m).lastCmd = s.lastCmd := by cases w <;> rfl
@[simp] theorem scramble_busy (w : Win) (s : State) : (scramble w s).busy = s.busy := by cases w <;> rfl
@[simp] theorem setWin_busy (w : Win) (m : Memory) (s : State) : (s.setWin w m).busy = s.busy := by cases w <;> rfl
@[simp] theorem scramble_done (w : Win) (s : State) : (scramble w s).done = s.done := by cases w <;> rfl
@[simp] theorem setWin_done (w : Win) (m : Memory) (s : State) : (s.setWin w m).done = s.done := by cases w <;> rfl
@[simp] theorem scramble_err (w : Win) (s : State) : (scramble w s).err = s.err := by cases w <;> rfl
@[simp] theorem setWin_err (w : Win) (m : Memory) (s : State) : (s.setWin w m).err = s.err := by cases w <;> rfl
@[simp] theorem scramble_haz (w : Win) (s : State) : (scramble w s).haz = s.haz := by cases w <;> rfl
@[simp] theorem setWin_haz (w : Win) (m : Memory) (s : State) : (s.setWin w m).haz = s.haz := by cases w <;> rfl
@[simp] theorem scramble_treeValid (w : Win) (s : State) : (scramble w s).treeValid = s.treeValid := by cases w <;> rfl
@[simp] theorem setWin_treeValid (w : Win) (m : Memory) (s : State) : (s.setWin w m).treeValid = s.treeValid := by cases w <;> rfl
@[simp] theorem scramble_codesValid (w : Win) (s : State) : (scramble w s).codesValid = s.codesValid := by cases w <;> rfl
@[simp] theorem setWin_codesValid (w : Win) (m : Memory) (s : State) : (s.setWin w m).codesValid = s.codesValid := by cases w <;> rfl
@[simp] theorem scramble_errCode (w : Win) (s : State) : (scramble w s).errCode = s.errCode := by cases w <;> rfl
@[simp] theorem setWin_errCode (w : Win) (m : Memory) (s : State) : (s.setWin w m).errCode = s.errCode := by cases w <;> rfl
@[simp] theorem scramble_errArg0 (w : Win) (s : State) : (scramble w s).errArg0 = s.errArg0 := by cases w <;> rfl
@[simp] theorem setWin_errArg0 (w : Win) (m : Memory) (s : State) : (s.setWin w m).errArg0 = s.errArg0 := by cases w <;> rfl
@[simp] theorem scramble_errArg1 (w : Win) (s : State) : (scramble w s).errArg1 = s.errArg1 := by cases w <;> rfl
@[simp] theorem setWin_errArg1 (w : Win) (m : Memory) (s : State) : (s.setWin w m).errArg1 = s.errArg1 := by cases w <;> rfl
@[simp] theorem scramble_errArg2 (w : Win) (s : State) : (scramble w s).errArg2 = s.errArg2 := by cases w <;> rfl
@[simp] theorem setWin_errArg2 (w : Win) (m : Memory) (s : State) : (s.setWin w m).errArg2 = s.errArg2 := by cases w <;> rfl
@[simp] theorem scramble_inLen (w : Win) (s : State) : (scramble w s).inLen = s.inLen := by cases w <;> rfl
@[simp] theorem setWin_inLen (w : Win) (m : Memory) (s : State) : (s.setWin w m).inLen = s.inLen := by cases w <;> rfl
@[simp] theorem scramble_outLen (w : Win) (s : State) : (scramble w s).outLen = s.outLen := by cases w <;> rfl
@[simp] theorem setWin_outLen (w : Win) (m : Memory) (s : State) : (s.setWin w m).outLen = s.outLen := by cases w <;> rfl
@[simp] theorem scramble_freqN (w : Win) (s : State) : (scramble w s).freqN = s.freqN := by cases w <;> rfl
@[simp] theorem setWin_freqN (w : Win) (m : Memory) (s : State) : (s.setWin w m).freqN = s.freqN := by cases w <;> rfl
@[simp] theorem scramble_nodeN (w : Win) (s : State) : (scramble w s).nodeN = s.nodeN := by cases w <;> rfl
@[simp] theorem setWin_nodeN (w : Win) (m : Memory) (s : State) : (s.setWin w m).nodeN = s.nodeN := by cases w <;> rfl
@[simp] theorem scramble_root (w : Win) (s : State) : (scramble w s).root = s.root := by cases w <;> rfl
@[simp] theorem setWin_root (w : Win) (m : Memory) (s : State) : (s.setWin w m).root = s.root := by cases w <;> rfl
@[simp] theorem scramble_codeN (w : Win) (s : State) : (scramble w s).codeN = s.codeN := by cases w <;> rfl
@[simp] theorem setWin_codeN (w : Win) (m : Memory) (s : State) : (s.setWin w m).codeN = s.codeN := by cases w <;> rfl
@[simp] theorem scramble_treeBits (w : Win) (s : State) : (scramble w s).treeBits = s.treeBits := by cases w <;> rfl
@[simp] theorem setWin_treeBits (w : Win) (m : Memory) (s : State) : (s.setWin w m).treeBits = s.treeBits := by cases w <;> rfl
@[simp] theorem scramble_payloadBits (w : Win) (s : State) : (scramble w s).payloadBits = s.payloadBits := by cases w <;> rfl
@[simp] theorem setWin_payloadBits (w : Win) (m : Memory) (s : State) : (s.setWin w m).payloadBits = s.payloadBits := by cases w <;> rfl
@[simp] theorem scramble_stopPos (w : Win) (s : State) : (scramble w s).stopPos = s.stopPos := by cases w <;> rfl
@[simp] theorem setWin_stopPos (w : Win) (m : Memory) (s : State) : (s.setWin w m).stopPos = s.stopPos := by cases w <;> rfl
@[simp] theorem scramble_rsp (w : Win) (s : State) : (scramble w s).rsp = s.rsp := by cases w <;> rfl
@[simp] theorem setWin_rsp (w : Win) (m : Memory) (s : State) : (s.setWin w m).rsp = s.rsp := by cases w <;> rfl
@[simp] theorem scramble_pending (w : Win) (s : State) : (scramble w s).pending = s.pending := by cases w <;> rfl
@[simp] theorem setWin_pending (w : Win) (m : Memory) (s : State) : (s.setWin w m).pending = s.pending := by cases w <;> rfl
@[simp] theorem scramble_busyTurns (w : Win) (s : State) : (scramble w s).busyTurns = s.busyTurns := by cases w <;> rfl
@[simp] theorem setWin_busyTurns (w : Win) (m : Memory) (s : State) : (s.setWin w m).busyTurns = s.busyTurns := by cases w <;> rfl
@[simp] theorem scramble_draws (w : Win) (s : State) : (scramble w s).draws = s.draws + 1 := rfl
@[simp] theorem setWin_draws (w : Win) (m : Memory) (s : State) : (s.setWin w m).draws = s.draws := by cases w <;> rfl
@[simp] theorem scramble_ibuf_ibuf (s : State) : (scramble .ibuf s).ibuf = ⟨.unspecified s.draws, []⟩ := rfl
@[simp] theorem scramble_ibuf_obuf (s : State) : (scramble .ibuf s).obuf = s.obuf := rfl
@[simp] theorem scramble_ibuf_freq (s : State) : (scramble .ibuf s).freq = s.freq := rfl
@[simp] theorem scramble_ibuf_node (s : State) : (scramble .ibuf s).node = s.node := rfl
@[simp] theorem scramble_ibuf_code (s : State) : (scramble .ibuf s).code = s.code := rfl
@[simp] theorem scramble_obuf_ibuf (s : State) : (scramble .obuf s).ibuf = s.ibuf := rfl
@[simp] theorem scramble_obuf_obuf (s : State) : (scramble .obuf s).obuf = ⟨.unspecified s.draws, []⟩ := rfl
@[simp] theorem scramble_obuf_freq (s : State) : (scramble .obuf s).freq = s.freq := rfl
@[simp] theorem scramble_obuf_node (s : State) : (scramble .obuf s).node = s.node := rfl
@[simp] theorem scramble_obuf_code (s : State) : (scramble .obuf s).code = s.code := rfl
@[simp] theorem scramble_freq_ibuf (s : State) : (scramble .freq s).ibuf = s.ibuf := rfl
@[simp] theorem scramble_freq_obuf (s : State) : (scramble .freq s).obuf = s.obuf := rfl
@[simp] theorem scramble_freq_freq (s : State) : (scramble .freq s).freq = ⟨.unspecified s.draws, []⟩ := rfl
@[simp] theorem scramble_freq_node (s : State) : (scramble .freq s).node = s.node := rfl
@[simp] theorem scramble_freq_code (s : State) : (scramble .freq s).code = s.code := rfl
@[simp] theorem scramble_node_ibuf (s : State) : (scramble .node s).ibuf = s.ibuf := rfl
@[simp] theorem scramble_node_obuf (s : State) : (scramble .node s).obuf = s.obuf := rfl
@[simp] theorem scramble_node_freq (s : State) : (scramble .node s).freq = s.freq := rfl
@[simp] theorem scramble_node_node (s : State) : (scramble .node s).node = ⟨.unspecified s.draws, []⟩ := rfl
@[simp] theorem scramble_node_code (s : State) : (scramble .node s).code = s.code := rfl
@[simp] theorem scramble_code_ibuf (s : State) : (scramble .code s).ibuf = s.ibuf := rfl
@[simp] theorem scramble_code_obuf (s : State) : (scramble .code s).obuf = s.obuf := rfl
@[simp] theorem scramble_code_freq (s : State) : (scramble .code s).freq = s.freq := rfl
@[simp] theorem scramble_code_node (s : State) : (scramble .code s).node = s.node := rfl
@[simp] theorem scramble_code_code (s : State) : (scramble .code s).code = ⟨.unspecified s.draws, []⟩ := rfl
@[simp] theorem win_ibuf (s : State) : s.win .ibuf = s.ibuf := rfl
@[simp] theorem win_obuf (s : State) : s.win .obuf = s.obuf := rfl
@[simp] theorem win_freq (s : State) : s.win .freq = s.freq := rfl
@[simp] theorem win_node (s : State) : s.win .node = s.node := rfl
@[simp] theorem win_code (s : State) : s.win .code = s.code := rfl

theorem win_setWin (w v : Win) (m : Memory) (s : State) :
    (s.setWin w m).win v = if w = v then m else s.win v := by
  cases w <;> cases v <;> rfl

theorem win_scramble (w v : Win) (s : State) :
    (scramble w s).win v = if w = v then ⟨.unspecified s.draws, []⟩ else s.win v := by
  cases w <;> cases v <;> rfl

end Sys2Proof.Machine
end

