-- ==== Sys2Proof/Laws/Bus.lean ====
section
/-! SUPPORT. The address map and the host's accesses: where a register's address leads, and what an access can do. -/

namespace Sys2Proof.Machine

theorem locate_offset (c : Config) (r : Reg) : locate c r.offset = .reg r := by cases r <;> rfl

theorem locate_regAddr (s : State) (r : Reg) : s.locate (regAddr s.cfg.base r) = .reg r := by
  have h : (regAddr s.cfg.base r - s.cfg.base).toNat = r.offset := by
    have hr : r.offset < 2 ^ 32 := by cases r <;> decide
    have he : regAddr s.cfg.base r - s.cfg.base = BitVec.ofNat 32 r.offset := by
      simp [regAddr, BitVec.add_comm s.cfg.base]
    rw [he, BitVec.toNat_ofNat, Nat.mod_eq_of_lt hr]
  rw [State.locate, h, locate_offset]

/-- A read is a hazard or leaves the state (R105, R210). -/
theorem hostRead_cases (a : Word) (s : State) :
    (s.busy = true ∧ (s.locate a).readAllowed = false ∧ hostRead a s = (0, setHaz s)) ∨
    ((s.busy = false ∨ (s.locate a).readAllowed = true) ∧ hostRead a s = (s.readLoc (s.locate a), s)) := by
  cases hb : s.busy <;> cases hr : (s.locate a).readAllowed <;> simp [hostRead, hb, hr]

/-- Reading a register gives its value, while idle or where R210 allows it. -/
theorem hostRead_regAddr (s : State) (r : Reg) (h : s.busy = false ∨ (Loc.reg r).readAllowed = true) :
    hostRead (regAddr s.cfg.base r) s = (s.readReg r, s) := by
  rcases hostRead_cases (regAddr s.cfg.base r) s with ⟨hb, hr, -⟩ | ⟨-, he⟩
  · rw [locate_regAddr] at hr
    rcases h with h | h <;> simp_all
  · rw [he, locate_regAddr]; rfl

/-- A write is a hazard or goes where its address leads (R210). -/
theorem hostWrite_cases (a v : Word) (s : State) :
    (s.busy = true ∧ (s.locate a).writeAllowed = false ∧ hostWrite a v s = setHaz s) ∨
    ((s.busy = false ∨ (s.locate a).writeAllowed = true) ∧ hostWrite a v s = writeLoc (s.locate a) v s) := by
  cases hb : s.busy <;> cases hr : (s.locate a).writeAllowed <;> simp [hostWrite, hb, hr]

/-- Which agent moves (R206). -/
theorem step_cases (s : State) :
    (s.engineMoves = true ∧ step s = exec s.command s) ∨ (s.engineMoves = false ∧ step s = hostTurn s) := by
  cases h : s.engineMoves <;> simp [step, h]

end Sys2Proof.Machine
end

