-- ==== Sys2Proof/Laws/Commands.lean ====
section
/-! SUPPORT. What each shared operation and each command body can answer, said once: later proofs cite these and do not
unfold a body. -/

namespace Sys2Proof.Machine

/-! ### The lifecycle -/

@[simp] theorem finish_ok (s : State) : finish (.ok s) = .next (complete s) := rfl

@[simp] theorem finish_raised (e : CmdError) (s : State) : finish (.raised e s) = .next (errorComplete e s) := rfl

@[simp] theorem finish_stuck (f : Fault) : finish (.stuck f) = .fault f := rfl

/-- A body that answers a next state completed, with or without an error (R205, R415). -/
theorem finish_next {g : Stage} {t : State} (h : finish g = .next t) :
    (∃ u, g = .ok u ∧ t = complete u) ∨ (∃ e u, g = .raised e u ∧ t = errorComplete e u) := by
  cases g with
  | ok u => exact .inl ⟨u, rfl, by simpa using h.symm⟩
  | raised e u => exact .inr ⟨e, u, rfl, by simpa using h.symm⟩
  | stuck f => simp at h

/-- No body is refused. -/
theorem finish_ne_refused (g : Stage) (r : Refusal) : finish g ≠ .refused r := by cases g <;> simp

@[simp] theorem andThen_ok (s : State) (f : State → Stage) : (Stage.ok s).andThen f = f s := rfl

@[simp] theorem andThen_raised (e : CmdError) (s : State) (f : State → Stage) :
    (Stage.raised e s).andThen f = .raised e s := rfl

@[simp] theorem andThen_stuck (g : Fault) (f : State → Stage) : (Stage.stuck g).andThen f = .stuck g := rfl

theorem andThen_eq_ok {g : Stage} {f : State → Stage} {t : State} (h : g.andThen f = .ok t) :
    ∃ u, g = .ok u ∧ f u = .ok t := by
  cases g with
  | ok u => exact ⟨u, rfl, h⟩
  | raised e u => simp at h
  | stuck k => simp at h

/-! ### The meanings -/

theorem exec_nop (s : State) : exec .nop s = .next (complete s) := rfl
theorem exec_clear (s : State) : exec .clear s = .next (complete (clearBody s)) := rfl
theorem exec_count (s : State) : exec .count s = finish (countBody s) := rfl
theorem exec_build (s : State) : exec .build s = finish (buildFrom (clearTree s)) := rfl
theorem exec_gencodes (s : State) : exec .gencodes s = finish (gencodesFrom (clearCodes s)) := rfl
theorem exec_serialize (s : State) : exec .serialize s = finish (serializeBody s) := rfl
theorem exec_encode (s : State) : exec .encode s = finish (encodeBody s) := rfl
theorem exec_decode (s : State) : exec .decode s = finish (decodeFrom (clearTree s)) := rfl

/-! ### The bodies -/

/-- All that COUNT can do (R240). -/
theorem countBody_cases (s : State) :
    (s.cfg.inCap < s.inLen.toNat ∧
      countBody s = .raised (.capacity 1 s.inLen.toNat s.cfg.inCap) (countFailed s)) ∨
    (∃ e, s.inLen.toNat ≤ s.cfg.inCap ∧
      countText s.cfg.nSym 0 (ibufWords s.ibuf s.inLen.toNat) [] = .error e ∧
      countBody s = .raised e (countFailed s)) ∨
    (∃ tab, s.inLen.toNat ≤ s.cfg.inCap ∧
      countText s.cfg.nSym 0 (ibufWords s.ibuf s.inLen.toNat) [] = .ok tab ∧
      countBody s = .ok (installFreq tab s)) := by
  by_cases h : s.cfg.inCap < s.inLen.toNat
  · exact .inl ⟨h, by simp [countBody, h]⟩
  · have h' := Nat.le_of_not_lt h
    cases hc : countText s.cfg.nSym 0 (ibufWords s.ibuf s.inLen.toNat) [] with
    | error e => exact .inr (.inl ⟨e, h', rfl, by simp [countBody, h, hc]⟩)
    | ok tab => exact .inr (.inr ⟨tab, h', rfl, by simp [countBody, h, hc]⟩)

/-- All that BUILD can do after its start (R260). -/
theorem buildFrom_cases (s : State) :
    (s.freqN = 0 ∧ buildFrom s = .raised .emptyInput (buildFailed s)) ∨
    (s.freqN ≠ 0 ∧ s.cfg.nSym < s.freqN.toNat ∧
      buildFrom s = .raised (.capacity 2 s.freqN.toNat s.cfg.nSym) (buildFailed s)) ∨
    (∃ e, s.freqN ≠ 0 ∧ s.freqN.toNat ≤ s.cfg.nSym ∧
      checkFreq 0 none (freqEntries s.freq s.freqN.toNat) = .error e ∧
      buildFrom s = .raised e (buildFailed s)) ∨
    (s.freqN ≠ 0 ∧ s.freqN.toNat ≤ s.cfg.nSym ∧
      checkFreq 0 none (freqEntries s.freq s.freqN.toNat) = .ok () ∧
      buildFrom s = .ok (installTree (buildNodes (freqEntries s.freq s.freqN.toNat)).1
        (buildNodes (freqEntries s.freq s.freqN.toNat)).2 s)) := by
  by_cases h0 : s.freqN = 0
  · exact .inl ⟨h0, by simp [buildFrom, h0]⟩
  by_cases h : s.cfg.nSym < s.freqN.toNat
  · exact .inr (.inl ⟨h0, h, by rw [buildFrom, if_neg h0, if_pos h]⟩)
  · have h' := Nat.le_of_not_lt h
    cases hc : checkFreq 0 none (freqEntries s.freq s.freqN.toNat) with
    | error e => exact .inr (.inr (.inl ⟨e, h0, h', rfl, by rw [buildFrom, if_neg h0, if_neg h, hc]⟩))
    | ok u => exact .inr (.inr (.inr ⟨h0, h', rfl, by rw [buildFrom, if_neg h0, if_neg h, hc]⟩))

/-- All that GENCODES can do after its start (R290). -/
theorem gencodesFrom_cases (s : State) :
    (s.treeValid = false ∧ gencodesFrom s = .raised (.notReady 0x10) (gencodesFailed s)) ∨
    (s.treeValid = true ∧ s.tree = none ∧ gencodesFrom s = .stuck .nodeMemoryNotATree) ∨
    (∃ t e, s.treeValid = true ∧ s.tree = some t ∧ codeTable s.cfg.lMax t = .error e ∧
      gencodesFrom s = .raised e (gencodesFailed s)) ∨
    (∃ t cs, s.treeValid = true ∧ s.tree = some t ∧ codeTable s.cfg.lMax t = .ok cs ∧
      gencodesFrom s = .ok (installCodes cs s)) := by
  cases hv : s.treeValid with
  | false => exact .inl ⟨rfl, by simp [gencodesFrom, hv]⟩
  | true =>
    cases ht : s.tree with
    | none => exact .inr (.inl ⟨rfl, rfl, by simp [gencodesFrom, hv, ht]⟩)
    | some t =>
      cases hc : codeTable s.cfg.lMax t with
      | error e => exact .inr (.inr (.inl ⟨t, e, rfl, rfl, hc, by simp [gencodesFrom, hv, ht, hc]⟩))
      | ok cs => exact .inr (.inr (.inr ⟨t, cs, rfl, rfl, hc, by simp [gencodesFrom, hv, ht, hc]⟩))

theorem missingMask_eq_zero (s : State) : missingMask s = 0 ↔ s.treeValid = true ∧ s.codesValid = true := by
  unfold missingMask; cases s.treeValid <;> cases s.codesValid <;> decide

/-- All that SERIALIZE can do (R310). -/
theorem serializeBody_cases (s : State) :
    (missingMask s ≠ 0 ∧ serializeBody s = .raised (.notReady (missingMask s)) (outputFailed s)) ∨
    (missingMask s = 0 ∧ s.cfg.inCap < s.inLen.toNat ∧
      serializeBody s = .raised (.capacity 1 s.inLen.toNat s.cfg.inCap) (outputFailed s)) ∨
    (missingMask s = 0 ∧ s.inLen.toNat ≤ s.cfg.inCap ∧ s.inLen = 0 ∧
      serializeBody s = .raised .emptyInput (outputFailed s)) ∨
    (missingMask s = 0 ∧ s.inLen.toNat ≤ s.cfg.inCap ∧ s.inLen ≠ 0 ∧ s.tree = none ∧
      serializeBody s = .stuck .nodeMemoryNotATree) ∨
    (∃ t e, missingMask s = 0 ∧ s.inLen.toNat ≤ s.cfg.inCap ∧ s.inLen ≠ 0 ∧ s.tree = some t ∧
      serialize s.cfg.outCap t (codeEntries s.code s.codeN.toNat) (ibufWords s.ibuf s.inLen.toNat) = .error e ∧
      serializeBody s = .raised e (outputFailed s)) ∨
    (∃ t r, missingMask s = 0 ∧ s.inLen.toNat ≤ s.cfg.inCap ∧ s.inLen ≠ 0 ∧ s.tree = some t ∧
      serialize s.cfg.outCap t (codeEntries s.code s.codeN.toNat) (ibufWords s.ibuf s.inLen.toNat) = .ok r ∧
      serializeBody s = .ok (installStream r s)) := by
  by_cases hm : missingMask s = 0
  · by_cases h : s.cfg.inCap < s.inLen.toNat
    · exact .inr (.inl ⟨hm, h, by simp [serializeBody, hm, h]⟩)
    · have h' := Nat.le_of_not_lt h
      by_cases h0 : s.inLen = 0
      · exact .inr (.inr (.inl ⟨hm, h', h0, by simp [serializeBody, hm, h0]⟩))
      · cases ht : s.tree with
        | none => exact .inr (.inr (.inr (.inl ⟨hm, h', h0, rfl, by
            rw [serializeBody, if_neg (not_not_intro hm), if_neg h, if_neg h0, ht]⟩)))
        | some t =>
          cases hs : serialize s.cfg.outCap t (codeEntries s.code s.codeN.toNat)
              (ibufWords s.ibuf s.inLen.toNat) with
          | error e =>
            exact .inr (.inr (.inr (.inr (.inl ⟨t, e, hm, h', h0, rfl, hs, by
              rw [serializeBody, if_neg (not_not_intro hm), if_neg h, if_neg h0, ht]; simp only [hs]⟩))))
          | ok r =>
            exact .inr (.inr (.inr (.inr (.inr ⟨t, r, hm, h', h0, rfl, hs, by
              rw [serializeBody, if_neg (not_not_intro hm), if_neg h, if_neg h0, ht]; simp only [hs]⟩))))
  · exact .inl ⟨hm, by rw [serializeBody, if_pos hm]⟩

/-- All that DECODE can do after its start (R350). -/
theorem decodeFrom_cases (s : State) :
    (s.cfg.inCap < s.inLen.toNat ∧
      decodeFrom s = .raised (.capacity 1 s.inLen.toNat s.cfg.inCap) (decodeFailed s)) ∨
    (∃ e, s.inLen.toNat ≤ s.cfg.inCap ∧
      decodeStream s.cfg (8 * s.inLen.toNat) (streamBit s.ibuf)
        ((ibufWord s.ibuf (s.inLen.toNat - 1)).toNat % 8) = .error e ∧
      decodeFrom s = .raised e (decodeFailed s)) ∨
    (∃ d, s.inLen.toNat ≤ s.cfg.inCap ∧
      decodeStream s.cfg (8 * s.inLen.toNat) (streamBit s.ibuf)
        ((ibufWord s.ibuf (s.inLen.toNat - 1)).toNat % 8) = .ok d ∧
      decodeFrom s = .ok (installDecoded d s)) := by
  by_cases h : s.cfg.inCap < s.inLen.toNat
  · exact .inl ⟨h, by simp [decodeFrom, h]⟩
  · have h' := Nat.le_of_not_lt h
    cases hc : decodeStream s.cfg (8 * s.inLen.toNat) (streamBit s.ibuf)
        ((ibufWord s.ibuf (s.inLen.toNat - 1)).toNat % 8) with
    | error e => exact .inr (.inl ⟨e, h', rfl, by simp [decodeFrom, h, hc]⟩)
    | ok d => exact .inr (.inr ⟨d, h', rfl, by simp [decodeFrom, h, hc]⟩)

end Sys2Proof.Machine
end

