-- ==== Sys2Proof/Laws/Memory.lean ====
section
/-! SUPPORT. The laws of a window's contents: what a read gives after a write, and that every operation keeps the
canonical form. Later proofs cite these and never unfold a cell list. -/

namespace Sys2Proof.Machine

/-! ### Cell lists -/

theorem lookupCell_insertCell (a : Nat) (b : Byte) (cs : List Host.Cell) (x : Nat) :
    lookupCell (insertCell a b cs) x = if a = x then some b else lookupCell cs x := by
  induction cs with
  | nil => simp [insertCell, lookupCell]
  | cons c cs ih =>
    obtain ⟨k, v⟩ := c
    simp only [insertCell]
    split
    · simp [lookupCell]
    · split
      · subst_vars; simp only [lookupCell]; split <;> simp_all
      · simp only [lookupCell, ih]; split <;> split <;> simp_all

theorem lookupCell_eraseCell (a : Nat) (cs : List Host.Cell) (x : Nat) :
    lookupCell (eraseCell a cs) x = if a = x then none else lookupCell cs x := by
  induction cs with
  | nil => simp [eraseCell, lookupCell]
  | cons c cs ih =>
    obtain ⟨k, v⟩ := c
    simp only [eraseCell]
    split
    · subst_vars; simp only [lookupCell, ih]; split <;> simp_all
    · simp only [lookupCell, ih]; split <;> split <;> simp_all

theorem mem_insertCell {a : Nat} {b : Byte} {cs : List Host.Cell} {c : Host.Cell} (h : c ∈ insertCell a b cs) :
    c = (a, b) ∨ c ∈ cs := by
  induction cs with
  | nil => simpa [insertCell] using h
  | cons d cs ih =>
    obtain ⟨k, v⟩ := d
    simp only [insertCell] at h
    split at h
    · simpa using h
    · split at h
      · rcases List.mem_cons.1 h with h | h
        · exact .inl h
        · exact .inr (List.mem_cons_of_mem _ h)
      · rcases List.mem_cons.1 h with h | h
        · exact .inr (h ▸ List.mem_cons_self)
        · exact (ih h).imp_right (List.mem_cons_of_mem _)

theorem mem_of_mem_eraseCell {a : Nat} {cs : List Host.Cell} {c : Host.Cell} (h : c ∈ eraseCell a cs) : c ∈ cs := by
  induction cs with
  | nil => simp [eraseCell] at h
  | cons d cs ih =>
    obtain ⟨k, v⟩ := d
    simp only [eraseCell] at h
    split at h
    · exact List.mem_cons_of_mem _ (ih h)
    · rcases List.mem_cons.1 h with h | h
      · exact h ▸ List.mem_cons_self
      · exact List.mem_cons_of_mem _ (ih h)

theorem rising_insertCell (a : Nat) (b : Byte) {cs : List Host.Cell}
    (h : (cs.map Prod.fst).Pairwise (· < ·)) : ((insertCell a b cs).map Prod.fst).Pairwise (· < ·) := by
  induction cs with
  | nil => simp [insertCell]
  | cons c cs ih =>
    obtain ⟨k, v⟩ := c
    simp only [List.map_cons, List.pairwise_cons, List.mem_map] at h
    simp only [insertCell]
    split
    · rename_i hak
      simp only [List.map_cons, List.pairwise_cons, List.mem_cons, List.mem_map]
      refine ⟨?_, ?_, h.2⟩
      · rintro x (rfl | ⟨c, hc, rfl⟩)
        · exact hak
        · exact hak.trans (h.1 _ ⟨c, hc, rfl⟩)
      · rintro x ⟨c, hc, rfl⟩; exact h.1 _ ⟨c, hc, rfl⟩
    · split
      · subst_vars
        simp only [List.map_cons, List.pairwise_cons, List.mem_map]
        exact h
      · simp only [List.map_cons, List.pairwise_cons, List.mem_map]
        refine ⟨?_, ih h.2⟩
        rintro x ⟨c, hc, rfl⟩
        rcases mem_insertCell hc with rfl | hc
        · simp; omega
        · exact h.1 _ ⟨c, hc, rfl⟩

theorem rising_eraseCell (a : Nat) {cs : List Host.Cell}
    (h : (cs.map Prod.fst).Pairwise (· < ·)) : ((eraseCell a cs).map Prod.fst).Pairwise (· < ·) := by
  induction cs with
  | nil => simp [eraseCell]
  | cons c cs ih =>
    obtain ⟨k, v⟩ := c
    simp only [List.map_cons, List.pairwise_cons, List.mem_map] at h
    simp only [eraseCell]
    split
    · exact ih h.2
    · simp only [List.map_cons, List.pairwise_cons, List.mem_map]
      refine ⟨?_, ih h.2⟩
      rintro x ⟨c, hc, rfl⟩
      exact h.1 _ ⟨c, mem_of_mem_eraseCell hc, rfl⟩

/-! ### Bytes -/

theorem Fill.read_of_byte {f : Fill} {b : Byte} (h : f.byte? = some b) (a : Nat) : f.read a = b := by
  cases f <;> simp_all [Fill.byte?, Fill.read]

@[simp] theorem writeByte_fill (m : Memory) (a : Nat) (b : Byte) : (m.writeByte a b).fill = m.fill := by
  unfold Memory.writeByte; split <;> rfl

theorem readByte_writeByte (m : Memory) (a : Nat) (b : Byte) (x : Nat) :
    (m.writeByte a b).readByte x = if a = x then b else m.readByte x := by
  unfold Memory.writeByte Memory.readByte
  by_cases h : m.fill.byte? = some b <;> by_cases hx : a = x
  · simp [h, hx, lookupCell_eraseCell, Fill.read_of_byte h]
  · simp [h, hx, lookupCell_eraseCell]
  · simp [h, hx, lookupCell_insertCell]
  · simp [h, hx, lookupCell_insertCell]

theorem wf_writeByte {m : Memory} (h : m.wf) (a : Nat) (b : Byte) : (m.writeByte a b).wf := by
  unfold Memory.writeByte
  split
  · exact ⟨rising_eraseCell a h.1, fun c hc => h.2 c (mem_of_mem_eraseCell hc)⟩
  · rename_i hb
    refine ⟨rising_insertCell a b h.1, fun c hc => ?_⟩
    rcases mem_insertCell hc with rfl | hc
    · exact hb
    · exact h.2 c hc

theorem mem_writeByte {m : Memory} {a : Nat} {b : Byte} {c : Host.Cell} (h : c ∈ (m.writeByte a b).cells) :
    c ∈ m.cells ∨ c.1 = a := by
  unfold Memory.writeByte at h
  split at h
  · exact .inl (mem_of_mem_eraseCell h)
  · rcases mem_insertCell h with rfl | h
    · exact .inr rfl
    · exact .inl h

/-! ### Words -/

@[simp] theorem writeWord_fill (m : Memory) (a : Nat) (w : Word) : (m.writeWord a w).fill = m.fill := by
  simp [Memory.writeWord]

theorem readByte_writeWord (m : Memory) (a : Nat) (w : Word) (x : Nat) :
    (m.writeWord a w).readByte x =
      if a ≤ x ∧ x < a + 4 then w.extractLsb' (8 * (x - a)) 8 else m.readByte x := by
  simp only [Memory.writeWord, readByte_writeByte]
  by_cases h3 : a + 3 = x
  · subst h3; simp
  by_cases h2 : a + 2 = x
  · subst h2; simp
  by_cases h1 : a + 1 = x
  · subst h1; simp
  by_cases h0 : a = x
  · subst h0; simp
  · rw [if_neg h3, if_neg h2, if_neg h1, if_neg h0, if_neg (by omega)]

/-- A word is its four bytes. -/
theorem word_of_bytes (w : Word) :
    (w.extractLsb' 24 8 ++ w.extractLsb' 16 8 ++ w.extractLsb' 8 8 ++ w.extractLsb' 0 8 : Word) = w := by
  ext i hi
  simp only [BitVec.getElem_append, BitVec.getElem_extractLsb']
  split
  · simp [BitVec.getLsbD_eq_getElem hi]
  · split
    · rw [show 8 + (i - 8) = i by omega, BitVec.getLsbD_eq_getElem hi]
    · split
      · rw [show 16 + (i - 8 - 8) = i by omega, BitVec.getLsbD_eq_getElem hi]
      · rw [show 24 + (i - 8 - 8 - 8) = i by omega, BitVec.getLsbD_eq_getElem hi]

theorem readWord_writeWord_same (m : Memory) (a : Nat) (w : Word) : (m.writeWord a w).readWord a = w := by
  simp only [Memory.readWord, readByte_writeWord]
  simpa using word_of_bytes w

theorem readWord_writeWord_of_disjoint (m : Memory) {a x : Nat} (w : Word) (h : x + 4 ≤ a ∨ a + 4 ≤ x) :
    (m.writeWord a w).readWord x = m.readWord x := by
  simp only [Memory.readWord, readByte_writeWord]
  rw [if_neg (by omega), if_neg (by omega), if_neg (by omega), if_neg (by omega)]

theorem wf_writeWord {m : Memory} (h : m.wf) (a : Nat) (w : Word) : (m.writeWord a w).wf :=
  wf_writeByte (wf_writeByte (wf_writeByte (wf_writeByte h _ _) _ _) _ _) _ _

theorem mem_writeWord {m : Memory} {a : Nat} {w : Word} {c : Host.Cell} (h : c ∈ (m.writeWord a w).cells) :
    c ∈ m.cells ∨ (a ≤ c.1 ∧ c.1 < a + 4) := by
  simp only [Memory.writeWord] at h
  rcases mem_writeByte h with h | h
  · rcases mem_writeByte h with h | h
    · rcases mem_writeByte h with h | h
      · rcases mem_writeByte h with h | h
        · exact .inl h
        · right; omega
      · right; omega
    · right; omega
  · right; omega

/-! ### Runs of words -/

@[simp] theorem writeWords_fill (m : Memory) (a : Nat) (ws : List Word) : (m.writeWords a ws).fill = m.fill := by
  induction ws generalizing m a with
  | nil => rfl
  | cons w ws ih => simp [Memory.writeWords, ih]

theorem readByte_writeWords_outside (m : Memory) {a : Nat} (ws : List Word) {x : Nat}
    (h : x < a ∨ a + 4 * ws.length ≤ x) : (m.writeWords a ws).readByte x = m.readByte x := by
  induction ws generalizing m a with
  | nil => rfl
  | cons w ws ih =>
    simp only [List.length_cons] at h
    rw [Memory.writeWords, ih _ (by omega), readByte_writeWord, if_neg (by omega)]

theorem readWord_writeWords_outside (m : Memory) {a : Nat} (ws : List Word) {x : Nat}
    (h : x + 4 ≤ a ∨ a + 4 * ws.length ≤ x) : (m.writeWords a ws).readWord x = m.readWord x := by
  simp only [Memory.readWord]
  rw [readByte_writeWords_outside, readByte_writeWords_outside, readByte_writeWords_outside,
    readByte_writeWords_outside] <;> omega

theorem readWord_writeWords (m : Memory) (a : Nat) (ws : List Word) (i : Nat) (h : i < ws.length) :
    (m.writeWords a ws).readWord (a + 4 * i) = ws[i] := by
  induction ws generalizing m a i with
  | nil => simp at h
  | cons w ws ih =>
    cases i with
    | zero =>
      simp only [Memory.writeWords, Nat.mul_zero, Nat.add_zero]
      rw [readWord_writeWords_outside _ _ (by omega), readWord_writeWord_same]
      rfl
    | succ i =>
      rw [Memory.writeWords, show a + 4 * (i + 1) = a + 4 + 4 * i by omega,
        ih _ _ _ (by simpa using h)]
      rfl

theorem wf_writeWords {m : Memory} (h : m.wf) (a : Nat) (ws : List Word) : (m.writeWords a ws).wf := by
  induction ws generalizing m a with
  | nil => exact h
  | cons w ws ih => exact ih (wf_writeWord h a w) _

theorem mem_writeWords {m : Memory} {a : Nat} {ws : List Word} {c : Host.Cell}
    (h : c ∈ (m.writeWords a ws).cells) : c ∈ m.cells ∨ (a ≤ c.1 ∧ c.1 < a + 4 * ws.length) := by
  induction ws generalizing m a with
  | nil => exact .inl h
  | cons w ws ih =>
    simp only [List.length_cons]
    rcases ih h with h | h
    · rcases mem_writeWord h with h | h
      · exact .inl h
      · right; omega
    · right; omega

/-- A window all of whose words a command writes: the words, and 0 behind them. -/
theorem readWord_ofWords (ws : List Word) (i : Nat) : (Memory.ofWords ws).readWord (4 * i) = ws.getD i 0 := by
  unfold Memory.ofWords
  by_cases h : i < ws.length
  · have := readWord_writeWords ⟨.zero, []⟩ 0 ws i h
    rw [Nat.zero_add] at this
    rw [this]; simp [List.getD, h]
  · rw [readWord_writeWords_outside _ _ (by omega)]
    simp [List.getD, List.getElem?_eq_none (Nat.le_of_not_lt h), Memory.readWord, Memory.readByte, lookupCell,
      Fill.read]

theorem wf_empty (f : Fill) : (⟨f, []⟩ : Memory).wf := by simp [Memory.wf]

theorem wf_ofWords (ws : List Word) : (Memory.ofWords ws).wf := wf_writeWords (wf_empty _) _ _

theorem mem_ofWords {ws : List Word} {c : Host.Cell} (h : c ∈ (Memory.ofWords ws).cells) :
    c.1 < 4 * ws.length := by
  rcases mem_writeWords h with h | h
  · simp at h
  · omega

end Sys2Proof.Machine
end

