-- ==== Sys2Proof/Laws/PerInstr.lean ====
section
/-! SUPPORT. The family TableRow: the word of a well-formed instruction meets the match and the mask of its row of
spec/opcode_table.json. -/

namespace Sys2Proof.Laws

/-- The row's "mask". -/
def rowMask : Instr → Word
  | .nop => 0xFFFFFFFF
  | .clear => 0xFFFFFFFF
  | .count => 0xFFFFFFFF
  | .build => 0xFFFFFFFF
  | .gencodes => 0xFFFFFFFF
  | .serialize => 0xFFFFFFFF
  | .encode => 0xFFFFFFFF
  | .decode => 0xFFFFFFFF
  | .reservedOp _ => 0xFFFFFFF8
  | .rsvdBit4 _ => BitVec.twoPow 32 4
  | .rsvdBit5 _ => BitVec.twoPow 32 5
  | .rsvdBit6 _ => BitVec.twoPow 32 6
  | .rsvdBit7 _ => BitVec.twoPow 32 7
  | .rsvdBit8 _ => BitVec.twoPow 32 8
  | .rsvdBit9 _ => BitVec.twoPow 32 9
  | .rsvdBit10 _ => BitVec.twoPow 32 10
  | .rsvdBit11 _ => BitVec.twoPow 32 11
  | .rsvdBit12 _ => BitVec.twoPow 32 12
  | .rsvdBit13 _ => BitVec.twoPow 32 13
  | .rsvdBit14 _ => BitVec.twoPow 32 14
  | .rsvdBit15 _ => BitVec.twoPow 32 15
  | .rsvdBit16 _ => BitVec.twoPow 32 16
  | .rsvdBit17 _ => BitVec.twoPow 32 17
  | .rsvdBit18 _ => BitVec.twoPow 32 18
  | .rsvdBit19 _ => BitVec.twoPow 32 19
  | .rsvdBit20 _ => BitVec.twoPow 32 20
  | .rsvdBit21 _ => BitVec.twoPow 32 21
  | .rsvdBit22 _ => BitVec.twoPow 32 22
  | .rsvdBit23 _ => BitVec.twoPow 32 23
  | .rsvdBit24 _ => BitVec.twoPow 32 24
  | .rsvdBit25 _ => BitVec.twoPow 32 25
  | .rsvdBit26 _ => BitVec.twoPow 32 26
  | .rsvdBit27 _ => BitVec.twoPow 32 27
  | .rsvdBit28 _ => BitVec.twoPow 32 28
  | .rsvdBit29 _ => BitVec.twoPow 32 29
  | .rsvdBit30 _ => BitVec.twoPow 32 30
  | .rsvdBit31 _ => BitVec.twoPow 32 31

/-- The row's "match". -/
def rowMatch : Instr → Word
  | .nop => 0x00000000
  | .clear => 0x00000001
  | .count => 0x00000002
  | .build => 0x00000003
  | .gencodes => 0x00000004
  | .serialize => 0x00000005
  | .encode => 0x00000006
  | .decode => 0x00000007
  | .reservedOp _ => 0x00000008
  | .rsvdBit4 _ => BitVec.twoPow 32 4
  | .rsvdBit5 _ => BitVec.twoPow 32 5
  | .rsvdBit6 _ => BitVec.twoPow 32 6
  | .rsvdBit7 _ => BitVec.twoPow 32 7
  | .rsvdBit8 _ => BitVec.twoPow 32 8
  | .rsvdBit9 _ => BitVec.twoPow 32 9
  | .rsvdBit10 _ => BitVec.twoPow 32 10
  | .rsvdBit11 _ => BitVec.twoPow 32 11
  | .rsvdBit12 _ => BitVec.twoPow 32 12
  | .rsvdBit13 _ => BitVec.twoPow 32 13
  | .rsvdBit14 _ => BitVec.twoPow 32 14
  | .rsvdBit15 _ => BitVec.twoPow 32 15
  | .rsvdBit16 _ => BitVec.twoPow 32 16
  | .rsvdBit17 _ => BitVec.twoPow 32 17
  | .rsvdBit18 _ => BitVec.twoPow 32 18
  | .rsvdBit19 _ => BitVec.twoPow 32 19
  | .rsvdBit20 _ => BitVec.twoPow 32 20
  | .rsvdBit21 _ => BitVec.twoPow 32 21
  | .rsvdBit22 _ => BitVec.twoPow 32 22
  | .rsvdBit23 _ => BitVec.twoPow 32 23
  | .rsvdBit24 _ => BitVec.twoPow 32 24
  | .rsvdBit25 _ => BitVec.twoPow 32 25
  | .rsvdBit26 _ => BitVec.twoPow 32 26
  | .rsvdBit27 _ => BitVec.twoPow 32 27
  | .rsvdBit28 _ => BitVec.twoPow 32 28
  | .rsvdBit29 _ => BitVec.twoPow 32 29
  | .rsvdBit30 _ => BitVec.twoPow 32 30
  | .rsvdBit31 _ => BitVec.twoPow 32 31

/-- The word of `i` is one of its row's. -/
def TableRow.Statement (i : Instr) : Prop := i.wellFormed = true → encode i &&& rowMask i = rowMatch i

theorem and_twoPow_of_lowestRsvd (n : Nat) (w : Word) (h : lowestRsvd n w = true) :
    w &&& BitVec.twoPow 32 n = BitVec.twoPow 32 n := by
  have hb : w.getLsbD n = true := by simp [lowestRsvd] at h; exact h.1
  rw [BitVec.and_twoPow, if_pos hb]

theorem TableRow.nop : Statement .nop := fun _ => rfl
theorem TableRow.clear : Statement .clear := fun _ => rfl
theorem TableRow.count : Statement .count := fun _ => rfl
theorem TableRow.build : Statement .build := fun _ => rfl
theorem TableRow.gencodes : Statement .gencodes := fun _ => rfl
theorem TableRow.serialize : Statement .serialize := fun _ => rfl
theorem TableRow.encode : Statement .encode := fun _ => rfl
theorem TableRow.decode : Statement .decode := fun _ => rfl
theorem TableRow.reservedOp (op : BitVec 4) : Statement (.reservedOp op) := by
  revert op; unfold Statement; decide
theorem TableRow.rsvdBit4 (w : Word) : Statement (.rsvdBit4 w) := and_twoPow_of_lowestRsvd 4 w
theorem TableRow.rsvdBit5 (w : Word) : Statement (.rsvdBit5 w) := and_twoPow_of_lowestRsvd 5 w
theorem TableRow.rsvdBit6 (w : Word) : Statement (.rsvdBit6 w) := and_twoPow_of_lowestRsvd 6 w
theorem TableRow.rsvdBit7 (w : Word) : Statement (.rsvdBit7 w) := and_twoPow_of_lowestRsvd 7 w
theorem TableRow.rsvdBit8 (w : Word) : Statement (.rsvdBit8 w) := and_twoPow_of_lowestRsvd 8 w
theorem TableRow.rsvdBit9 (w : Word) : Statement (.rsvdBit9 w) := and_twoPow_of_lowestRsvd 9 w
theorem TableRow.rsvdBit10 (w : Word) : Statement (.rsvdBit10 w) := and_twoPow_of_lowestRsvd 10 w
theorem TableRow.rsvdBit11 (w : Word) : Statement (.rsvdBit11 w) := and_twoPow_of_lowestRsvd 11 w
theorem TableRow.rsvdBit12 (w : Word) : Statement (.rsvdBit12 w) := and_twoPow_of_lowestRsvd 12 w
theorem TableRow.rsvdBit13 (w : Word) : Statement (.rsvdBit13 w) := and_twoPow_of_lowestRsvd 13 w
theorem TableRow.rsvdBit14 (w : Word) : Statement (.rsvdBit14 w) := and_twoPow_of_lowestRsvd 14 w
theorem TableRow.rsvdBit15 (w : Word) : Statement (.rsvdBit15 w) := and_twoPow_of_lowestRsvd 15 w
theorem TableRow.rsvdBit16 (w : Word) : Statement (.rsvdBit16 w) := and_twoPow_of_lowestRsvd 16 w
theorem TableRow.rsvdBit17 (w : Word) : Statement (.rsvdBit17 w) := and_twoPow_of_lowestRsvd 17 w
theorem TableRow.rsvdBit18 (w : Word) : Statement (.rsvdBit18 w) := and_twoPow_of_lowestRsvd 18 w
theorem TableRow.rsvdBit19 (w : Word) : Statement (.rsvdBit19 w) := and_twoPow_of_lowestRsvd 19 w
theorem TableRow.rsvdBit20 (w : Word) : Statement (.rsvdBit20 w) := and_twoPow_of_lowestRsvd 20 w
theorem TableRow.rsvdBit21 (w : Word) : Statement (.rsvdBit21 w) := and_twoPow_of_lowestRsvd 21 w
theorem TableRow.rsvdBit22 (w : Word) : Statement (.rsvdBit22 w) := and_twoPow_of_lowestRsvd 22 w
theorem TableRow.rsvdBit23 (w : Word) : Statement (.rsvdBit23 w) := and_twoPow_of_lowestRsvd 23 w
theorem TableRow.rsvdBit24 (w : Word) : Statement (.rsvdBit24 w) := and_twoPow_of_lowestRsvd 24 w
theorem TableRow.rsvdBit25 (w : Word) : Statement (.rsvdBit25 w) := and_twoPow_of_lowestRsvd 25 w
theorem TableRow.rsvdBit26 (w : Word) : Statement (.rsvdBit26 w) := and_twoPow_of_lowestRsvd 26 w
theorem TableRow.rsvdBit27 (w : Word) : Statement (.rsvdBit27 w) := and_twoPow_of_lowestRsvd 27 w
theorem TableRow.rsvdBit28 (w : Word) : Statement (.rsvdBit28 w) := and_twoPow_of_lowestRsvd 28 w
theorem TableRow.rsvdBit29 (w : Word) : Statement (.rsvdBit29 w) := and_twoPow_of_lowestRsvd 29 w
theorem TableRow.rsvdBit30 (w : Word) : Statement (.rsvdBit30 w) := and_twoPow_of_lowestRsvd 30 w
theorem TableRow.rsvdBit31 (w : Word) : Statement (.rsvdBit31 w) := and_twoPow_of_lowestRsvd 31 w

end Sys2Proof.Laws
end

