-- ==== Sys2Proof/Laws/Tables.lean ====
section
/-! SUPPORT. Reading a table back after a command has written all of it: the entries, and zero or EMPTY entries behind
them (92_eei_decisions.md D34). -/

namespace Sys2Proof.Machine

/-- Word `j` of entry `i` in a list of entries of `k` words each; `d` is the entry of zeros. -/
theorem getD_flatMap_words {α : Type} (f : α → List Word) (k : Nat) (d : α) (hf : ∀ a, (f a).length = k)
    (hd : f d = List.replicate k 0) (l : List α) (i j : Nat) (hj : j < k) :
    (l.flatMap f).getD (k * i + j) 0 = (f (l.getD i d)).getD j 0 := by
  induction l generalizing i with
  | nil => simp [hd, List.getD, hj]
  | cons a l ih =>
    cases i with
    | zero =>
      rw [List.flatMap_cons, Nat.mul_zero, Nat.zero_add]
      simp only [List.getD, List.getElem?_cons_zero, Option.getD_some]
      rw [List.getElem?_append_left (by rw [hf]; exact hj)]
    | succ i =>
      rw [List.flatMap_cons]
      simp only [List.getD, List.getElem?_cons_succ]
      rw [List.getElem?_append_right (by rw [hf, Nat.mul_succ]; omega), hf,
        show k * (i + 1) + j - k = k * i + j by rw [Nat.mul_succ]; omega]
      exact ih i

theorem length_flatMap_words {α : Type} (f : α → List Word) (k : Nat) (hf : ∀ a, (f a).length = k) (l : List α) :
    (l.flatMap f).length = k * l.length := by
  induction l with
  | nil => rfl
  | cons a l ih => simp [ih, hf, Nat.mul_succ]; omega

theorem readWord_table {α : Type} (f : α → List Word) (k : Nat) (d : α) (hf : ∀ a, (f a).length = k)
    (hd : f d = List.replicate k 0) (l : List α) (i j : Nat) (hj : j < k) :
    (Memory.ofWords (l.flatMap f)).readWord (4 * (k * i + j)) = (f (l.getD i d)).getD j 0 := by
  rw [readWord_ofWords, getD_flatMap_words f k d hf hd l i j hj]

@[simp] theorem FreqEntry.length_words (e : FreqEntry) : e.words.length = 2 := rfl

@[simp] theorem Node.length_words (n : Node) : n.words.length = 8 := by cases n <;> rfl

@[simp] theorem CodeEntry.length_words (e : CodeEntry) : e.words.length = 4 := rfl

/-- Word `j` of NODE[i] after a command has written the nodes `ns` (R64). -/
theorem nodeWord_ofWords (ns : List Node) (i j : Nat) (hj : j < 8) :
    (Memory.ofWords (ns.flatMap Node.words)).readWord (32 * i + 4 * j) = (ns.getD i .empty).words.getD j 0 := by
  rw [show 32 * i + 4 * j = 4 * (8 * i + j) by omega]
  exact readWord_table Node.words 8 .empty Node.length_words rfl ns i j hj

theorem freqEntry_ofWords (tab : List FreqEntry) (i : Nat) :
    freqEntry (Memory.ofWords (tab.flatMap FreqEntry.words)) i = tab.getD i ⟨0, 0⟩ := by
  unfold freqEntry
  rw [show 8 * i + 4 = 4 * (2 * i + 1) by omega, show 8 * i = 4 * (2 * i + 0) by omega,
    readWord_table _ 2 ⟨0, 0⟩ FreqEntry.length_words rfl tab i 0 (by omega),
    readWord_table _ 2 ⟨0, 0⟩ FreqEntry.length_words rfl tab i 1 (by omega)]
  rfl

/-- A double word is its two words. -/
theorem dword_of_words (w : DWord) : (w.extractLsb' 32 32 ++ w.extractLsb' 0 32 : DWord) = w := by
  ext i hi
  simp only [BitVec.getElem_append, BitVec.getElem_extractLsb']
  split
  · simp [BitVec.getLsbD_eq_getElem hi]
  · rw [show 32 + (i - 32) = i by omega, BitVec.getLsbD_eq_getElem hi]

theorem codeEntry_ofWords (cs : List CodeEntry) (i : Nat) :
    codeEntry (Memory.ofWords (cs.flatMap CodeEntry.words)) i = cs.getD i ⟨0, 0, 0⟩ := by
  unfold codeEntry
  rw [show 16 * i + 4 = 4 * (4 * i + 1) by omega, show 16 * i + 12 = 4 * (4 * i + 3) by omega,
    show 16 * i + 8 = 4 * (4 * i + 2) by omega, show 16 * i = 4 * (4 * i + 0) by omega,
    readWord_table _ 4 ⟨0, 0, 0⟩ CodeEntry.length_words rfl cs i 0 (by omega),
    readWord_table _ 4 ⟨0, 0, 0⟩ CodeEntry.length_words rfl cs i 1 (by omega),
    readWord_table _ 4 ⟨0, 0, 0⟩ CodeEntry.length_words rfl cs i 2 (by omega),
    readWord_table _ 4 ⟨0, 0, 0⟩ CodeEntry.length_words rfl cs i 3 (by omega)]
  simp only [CodeEntry.words, List.getD_cons_zero, List.getD_cons_succ, dword_of_words]

/-- The first `l.length` values of `fun i => l.getD i d` are `l`. -/
theorem map_range_getD {α : Type} (l : List α) (d : α) : (List.range l.length).map (fun i => l.getD i d) = l := by
  apply List.ext_getElem
  · simp
  · intro i h1 h2; simp [List.getD, h2]

theorem freqEntries_ofWords (tab : List FreqEntry) :
    freqEntries (Memory.ofWords (tab.flatMap FreqEntry.words)) tab.length = tab := by
  unfold freqEntries
  simp only [funext (freqEntry_ofWords tab)]
  exact map_range_getD tab ⟨0, 0⟩

theorem codeEntries_ofWords (cs : List CodeEntry) :
    codeEntries (Memory.ofWords (cs.flatMap CodeEntry.words)) cs.length = cs := by
  unfold codeEntries
  simp only [funext (codeEntry_ofWords cs)]
  exact map_range_getD cs ⟨0, 0, 0⟩

/-! ### The nodes of a tree region (30_encoding.md R151) -/

@[simp] theorem nodeBits_none : nodeBits none = [false] := rfl

@[simp] theorem nodeBits_some (c : Word) : nodeBits (some c) = true :: wordBits c := rfl

@[simp] theorem emptySlots_nil (n : Nat) : emptySlots n [] = n := by cases n <;> rfl

@[simp] theorem emptySlots_complete (xs : List (Option Word)) : emptySlots 0 xs = 0 := by cases xs <;> rfl

@[simp] theorem emptySlots_internal (n : Nat) (xs : List (Option Word)) :
    emptySlots (n + 1) (none :: xs) = emptySlots (n + 2) xs := rfl

@[simp] theorem emptySlots_leaf (n : Nat) (c : Word) (xs : List (Option Word)) :
    emptySlots (n + 1) (some c :: xs) = emptySlots n xs := rfl

end Sys2Proof.Machine
end

