-- ==== Sys2Proof/Tests/Slice0.lean ====
section
/-! SUPPORT. The model's own tests: decoding of words written out from 30_encoding.md R142 to R144, the WellFormed smoke
test, one step of each command against the vectors of 95_test_vectors.md, and a witness for the hypotheses of every
statement that has any. -/

namespace Sys2Proof.Tests

set_option Elab.async false

open Sys2Proof Sys2Proof.Machine

/-! ### WellFormed: an ill-formed term for each check -/

/-- 0x7 is DECODE and no reserved opcode (R142, R143); 0x8 is. -/
theorem test_wellFormed_refuses_legal_opcode :
    (Instr.reservedOp 7).wellFormed = false ∧ (Instr.reservedOp 8).wellFormed = true := by decide

/-- A word without the row's bit belongs to no row of that bit (R144). -/
theorem test_wellFormed_refuses_bit_clear :
    (Instr.rsvdBit4 0x00000002).wellFormed = false ∧
    (Instr.rsvdBit5 0x00000002).wellFormed = false ∧
    (Instr.rsvdBit6 0x00000002).wellFormed = false ∧
    (Instr.rsvdBit7 0x00000002).wellFormed = false ∧
    (Instr.rsvdBit8 0x00000002).wellFormed = false ∧
    (Instr.rsvdBit9 0x00000002).wellFormed = false ∧
    (Instr.rsvdBit10 0x00000002).wellFormed = false ∧
    (Instr.rsvdBit11 0x00000002).wellFormed = false ∧
    (Instr.rsvdBit12 0x00000002).wellFormed = false ∧
    (Instr.rsvdBit13 0x00000002).wellFormed = false ∧
    (Instr.rsvdBit14 0x00000002).wellFormed = false ∧
    (Instr.rsvdBit15 0x00000002).wellFormed = false ∧
    (Instr.rsvdBit16 0x00000002).wellFormed = false ∧
    (Instr.rsvdBit17 0x00000002).wellFormed = false ∧
    (Instr.rsvdBit18 0x00000002).wellFormed = false ∧
    (Instr.rsvdBit19 0x00000002).wellFormed = false ∧
    (Instr.rsvdBit20 0x00000002).wellFormed = false ∧
    (Instr.rsvdBit21 0x00000002).wellFormed = false ∧
    (Instr.rsvdBit22 0x00000002).wellFormed = false ∧
    (Instr.rsvdBit23 0x00000002).wellFormed = false ∧
    (Instr.rsvdBit24 0x00000002).wellFormed = false ∧
    (Instr.rsvdBit25 0x00000002).wellFormed = false ∧
    (Instr.rsvdBit26 0x00000002).wellFormed = false ∧
    (Instr.rsvdBit27 0x00000002).wellFormed = false ∧
    (Instr.rsvdBit28 0x00000002).wellFormed = false ∧
    (Instr.rsvdBit29 0x00000002).wellFormed = false ∧
    (Instr.rsvdBit30 0x00000002).wellFormed = false ∧
    (Instr.rsvdBit31 0x00000002).wellFormed = false := by
  decide

/-- A word with a lower reserved bit belongs to that bit's row (log 9). -/
theorem test_wellFormed_refuses_lower_bit :
    (Instr.rsvdBit5 0x00000030).wellFormed = false ∧
    (Instr.rsvdBit6 0x00000060).wellFormed = false ∧
    (Instr.rsvdBit7 0x000000C0).wellFormed = false ∧
    (Instr.rsvdBit8 0x00000180).wellFormed = false ∧
    (Instr.rsvdBit9 0x00000300).wellFormed = false ∧
    (Instr.rsvdBit10 0x00000600).wellFormed = false ∧
    (Instr.rsvdBit11 0x00000C00).wellFormed = false ∧
    (Instr.rsvdBit12 0x00001800).wellFormed = false ∧
    (Instr.rsvdBit13 0x00003000).wellFormed = false ∧
    (Instr.rsvdBit14 0x00006000).wellFormed = false ∧
    (Instr.rsvdBit15 0x0000C000).wellFormed = false ∧
    (Instr.rsvdBit16 0x00018000).wellFormed = false ∧
    (Instr.rsvdBit17 0x00030000).wellFormed = false ∧
    (Instr.rsvdBit18 0x00060000).wellFormed = false ∧
    (Instr.rsvdBit19 0x000C0000).wellFormed = false ∧
    (Instr.rsvdBit20 0x00180000).wellFormed = false ∧
    (Instr.rsvdBit21 0x00300000).wellFormed = false ∧
    (Instr.rsvdBit22 0x00600000).wellFormed = false ∧
    (Instr.rsvdBit23 0x00C00000).wellFormed = false ∧
    (Instr.rsvdBit24 0x01800000).wellFormed = false ∧
    (Instr.rsvdBit25 0x03000000).wellFormed = false ∧
    (Instr.rsvdBit26 0x06000000).wellFormed = false ∧
    (Instr.rsvdBit27 0x0C000000).wellFormed = false ∧
    (Instr.rsvdBit28 0x18000000).wellFormed = false ∧
    (Instr.rsvdBit29 0x30000000).wellFormed = false ∧
    (Instr.rsvdBit30 0x60000000).wellFormed = false ∧
    (Instr.rsvdBit31 0xC0000000).wellFormed = false := by
  decide

/-! ### Decoding: the words from the opcode map (R142), bit 0 last -/

/-- R142. -/
theorem test_decode_legal_words :
    decode 0b00000000000000000000000000000000 = .nop ∧
    decode 0b00000000000000000000000000000001 = .clear ∧
    decode 0b00000000000000000000000000000010 = .count ∧
    decode 0b00000000000000000000000000000011 = .build ∧
    decode 0b00000000000000000000000000000100 = .gencodes ∧
    decode 0b00000000000000000000000000000101 = .serialize ∧
    decode 0b00000000000000000000000000000110 = .encode ∧
    decode 0b00000000000000000000000000000111 = .decode := by decide

/-- R143. -/
theorem test_decode_reserved_opcodes :
    decode 0x00000008 = .reservedOp 0x8 ∧ decode 0x00000009 = .reservedOp 0x9 ∧
    decode 0x0000000A = .reservedOp 0xA ∧ decode 0x0000000B = .reservedOp 0xB ∧
    decode 0x0000000C = .reservedOp 0xC ∧ decode 0x0000000D = .reservedOp 0xD ∧
    decode 0x0000000E = .reservedOp 0xE ∧ decode 0x0000000F = .reservedOp 0xF := by decide

/-- R144: one reserved bit set, for every row of the table. -/
theorem test_decode_reserved_bits :
    decode 0x00000010 = .rsvdBit4 0x00000010 ∧
    decode 0x00000020 = .rsvdBit5 0x00000020 ∧
    decode 0x00000040 = .rsvdBit6 0x00000040 ∧
    decode 0x00000080 = .rsvdBit7 0x00000080 ∧
    decode 0x00000100 = .rsvdBit8 0x00000100 ∧
    decode 0x00000200 = .rsvdBit9 0x00000200 ∧
    decode 0x00000400 = .rsvdBit10 0x00000400 ∧
    decode 0x00000800 = .rsvdBit11 0x00000800 ∧
    decode 0x00001000 = .rsvdBit12 0x00001000 ∧
    decode 0x00002000 = .rsvdBit13 0x00002000 ∧
    decode 0x00004000 = .rsvdBit14 0x00004000 ∧
    decode 0x00008000 = .rsvdBit15 0x00008000 ∧
    decode 0x00010000 = .rsvdBit16 0x00010000 ∧
    decode 0x00020000 = .rsvdBit17 0x00020000 ∧
    decode 0x00040000 = .rsvdBit18 0x00040000 ∧
    decode 0x00080000 = .rsvdBit19 0x00080000 ∧
    decode 0x00100000 = .rsvdBit20 0x00100000 ∧
    decode 0x00200000 = .rsvdBit21 0x00200000 ∧
    decode 0x00400000 = .rsvdBit22 0x00400000 ∧
    decode 0x00800000 = .rsvdBit23 0x00800000 ∧
    decode 0x01000000 = .rsvdBit24 0x01000000 ∧
    decode 0x02000000 = .rsvdBit25 0x02000000 ∧
    decode 0x04000000 = .rsvdBit26 0x04000000 ∧
    decode 0x08000000 = .rsvdBit27 0x08000000 ∧
    decode 0x10000000 = .rsvdBit28 0x10000000 ∧
    decode 0x20000000 = .rsvdBit29 0x20000000 ∧
    decode 0x40000000 = .rsvdBit30 0x40000000 ∧
    decode 0x80000000 = .rsvdBit31 0x80000000 := by
  decide

/-- R144 and 95_test_vectors.md L5: a reserved bit makes the word illegal whatever its OP; of several, the lowest names
the row (log 9). -/
theorem test_decode_reserved_bits_with_op :
    decode 0x00000012 = .rsvdBit4 0x00000012 ∧ decode 0xFFFFFFFF = .rsvdBit4 0xFFFFFFFF ∧
    decode 0x80000400 = .rsvdBit10 0x80000400 ∧ decode 0xC0000007 = .rsvdBit30 0xC0000007 := by decide

theorem test_decodeTableWord :
    decodeTableWord 32 0x5 = some .serialize ∧ decodeTableWord 32 0xC = some (.reservedOp 0xC) ∧
    decodeTableWord 32 0x100000000 = none ∧ decodeTableWord 40 0x5 = none := by decide

theorem test_encode_words :
    encode .encode = 0x00000006 ∧ encode (.reservedOp 0xB) = 0x0000000B ∧
    encode (.rsvdBit7 0x00000085) = 0x00000085 := by decide

/-! ### Small states -/

/-- One view of the next state; none at a stop. -/
def after {α : Type} (o : Host.Outcome State Fault Refusal) (f : State → α) : Option α :=
  match o with
  | .next t => some (f t)
  | .fault _ => none
  | .refused _ => none

/-- After reset, a text or a stream loaded, a command running. -/
def loaded (c : Config) (ws : List Word) : State :=
  { State.resetAt c [] 0 with ibuf := Memory.ofWords ws, inLen := BitVec.ofNat 32 ws.length, busy := true }

/-- After reset, FREQ loaded, a command running. -/
def freqLoaded (c : Config) (es : List FreqEntry) : State :=
  { State.resetAt c [] 0 with
    freq := Memory.ofWords (es.flatMap FreqEntry.words), freqN := BitVec.ofNat 32 es.length, busy := true }

/-- A state with this node memory as its tree. -/
def withTree (ns : List Node) (r : Nat) (s : State) : State :=
  { s with
    node := Memory.ofWords (ns.flatMap Node.words), nodeN := BitVec.ofNat 32 ns.length,
    root := BitVec.ofNat 32 r, treeValid := true }

/-- A state with this code table. -/
def withCodes (cs : List CodeEntry) (s : State) : State :=
  { s with
    code := Memory.ofWords (cs.flatMap CodeEntry.words), codeN := BitVec.ofNat 32 cs.length, codesValid := true }

/-- `"aaabbc"` (W1). -/
def w1Text : List Word := [0x61, 0x61, 0x61, 0x62, 0x62, 0x63]

/-- The stream of W1. -/
def w1Stream : List Word := [0x40, 0, 0, 0x18, 0x50, 0, 0, 6, 0x38, 0, 0, 3, 0x10, 0xF8, 0]

/-- The node memory of W1. -/
def w1Nodes : List Node :=
  [.leaf 0x61 3, .leaf 0x62 2, .leaf 0x63 1, .internal 2 1 3, .internal 0 3 6]

/-- The code table of W1. -/
def w1Codes : List CodeEntry := [⟨0x61, 1, 0⟩, ⟨0x62, 2, 3⟩, ⟨0x63, 2, 2⟩]

def w1Tree : Tree := .node (.leaf 0x61) (.node (.leaf 0x63) (.leaf 0x62))

/-- `"ab"` and its tree and codes, for the configuration SMALL (S11 to S13). -/
def abTree : Tree := .node (.leaf 0x61) (.leaf 0x62)

def abState (c : Config) (text : List Word) : State :=
  withCodes [⟨0x61, 1, 0⟩, ⟨0x62, 1, 1⟩]
    (withTree [.leaf 0x61 1, .leaf 0x62 1, .internal 0 1 2] 2 (loaded c text))

/-- The elements of OBUF up to OUT_LEN. -/
def obufElements (t : State) : List Word := ibufWords t.obuf t.outLen.toNat

/-- The error record (R40, R41). -/
structure ErrView where
  code : BitVec 8
  arg0 : Word
  arg1 : Word
  arg2 : Word
deriving DecidableEq, Repr

def errRecord (t : State) : ErrView := ⟨t.errCode, t.errArg0, t.errArg1, t.errArg2⟩

/-- An entry of the node memory (R64). -/
structure NodeView where
  kind : BitVec 2
  a : Word
  b : Word
  weight : DWord
deriving DecidableEq, Repr

def nodeViews (n : Nat) (t : State) : List NodeView :=
  (List.range n).map (fun i => ⟨nodeKind t.node i, nodeA t.node i, nodeB t.node i, nodeWeight t.node i⟩)

/-! ### One step of each command -/

/-- L2. -/
theorem test_nop : after (exec .nop { State.reset with busy := true }) State.status = some 0x02 := by decide +kernel

/-- L7: STATUS, ROOT and IN_LEN; OBUF[0] still 0x40. -/
theorem test_clear :
    after (exec .clear { withTree w1Nodes 4 (loaded Config.ref w1Text) with obuf := Memory.ofWords w1Stream })
      (fun t => (t.status, t.root, t.inLen, t.nodeN, ibufWord t.obuf 0)) =
    some (0x02, 0xFFFFFFFF, 6, 0, 0x40) := by decide +kernel

/-- C7: the extreme code points, in ascending order. -/
theorem test_count_orders_extremes :
    after (exec .count (loaded Config.ref [0x10FFFF, 0, 0xE000, 0xD7FF]))
      (fun t => (t.status, freqEntries t.freq 5, t.freqN)) =
    some (0x02, [⟨0, 1⟩, ⟨0xD7FF, 1⟩, ⟨0xE000, 1⟩, ⟨0x10FFFF, 1⟩, ⟨0, 0⟩], 4) := by decide +kernel

/-- C3: the first invalid index wins. -/
theorem test_count_invalid_code_point :
    after (exec .count (loaded Config.ref [0x61, 0xD800, 0x110000])) (fun t => (errRecord t, t.freqN)) =
    some (⟨3, 1, 0xD800, 0⟩, 0) := by decide +kernel

/-- B8: zero counts build leaves, ties broken by index. -/
theorem test_build_ties :
    after (exec .build (freqLoaded Config.ref [⟨0x61, 0⟩, ⟨0x62, 0⟩, ⟨0x63, 5⟩]))
      (fun t => (t.root, t.nodeN, nodeViews 5 t)) =
    some (4, 5, [⟨2, 0x61, 0, 0⟩, ⟨2, 0x62, 0, 0⟩, ⟨2, 0x63, 0, 5⟩, ⟨1, 0, 1, 0⟩, ⟨1, 3, 2, 5⟩]) := by
  decide +kernel

/-- B6: a repeated character. -/
theorem test_build_duplicate :
    after (exec .build (freqLoaded Config.ref [⟨0x61, 1⟩, ⟨0x61, 1⟩])) (fun t => (errRecord t, t.root)) =
    some (⟨9, 1, 0x61, 0x61⟩, 0xFFFFFFFF) := by decide +kernel

/-- G1. -/
theorem test_gencodes_w1 :
    after (exec .gencodes (withTree w1Nodes 4 (loaded Config.ref [])))
      (fun t => (t.status, codeEntries t.code 4, t.codeN)) =
    some (0x32, w1Codes ++ [⟨0, 0, 0⟩], 3) := by decide +kernel

/-- G4: CODE_TOO_LONG at the least character that is too deep. -/
theorem test_gencodes_too_long :
    after (exec .gencodes (withTree
      [.leaf 0x61 1, .leaf 0x62 1, .leaf 0x63 2, .leaf 0x64 4, .internal 0 1 2, .internal 2 4 4, .internal 3 5 8] 6
      (loaded Config.small []))) (fun t => (errRecord t, t.treeValid, t.codesValid)) =
    some (⟨8, 0x61, 3, 2⟩, true, false) := by decide +kernel

/-- S1b: `"cab"` with the codes of W1. -/
theorem test_serialize_cab :
    after (exec .serialize (withCodes w1Codes (withTree w1Nodes 4 (loaded Config.ref [0x63, 0x61, 0x62]))))
      (fun t => (obufElements t, t.treeBits, t.payloadBits, t.stopPos)) =
    some ([0x40, 0, 0, 0x18, 0x50, 0, 0, 6, 0x38, 0, 0, 3, 0x14, 0xC4], 101, 5, 106) := by decide +kernel

/-- S13: a character without a code. -/
theorem test_serialize_symbol_not_in_table :
    after (exec .serialize (abState Config.ref [0x61, 0x62, 0x63])) (fun t => (errRecord t, t.outLen)) =
    some (⟨10, 2, 0x63, 0⟩, 0) := by decide +kernel

/-- W1. -/
theorem test_encode_w1 :
    after (exec .encode (loaded Config.ref w1Text)) (fun t => (t.status, obufElements t, t.codeN, t.root)) =
    some (0x32, w1Stream, 3, 4) := by decide +kernel

/-- S16: the stream of `"ab"` does not fit SMALL; the tree and the codes remain. -/
theorem test_encode_capacity :
    after (exec .encode (loaded Config.small [0x61, 0x62])) (fun t => (t.status, errRecord t)) =
    some (0x36, ⟨7, 4, 9, 8⟩) := by decide +kernel

/-- D1: W1 decoded, the nodes in preorder. -/
theorem test_decode_w1 :
    after (exec .decode (loaded Config.ref w1Stream))
      (fun t => (t.status, obufElements t, t.stopPos, nodeViews 6 t)) =
    some (0x12, w1Text, 110, [⟨1, 1, 2, 0⟩, ⟨2, 0x61, 0, 0⟩, ⟨1, 3, 4, 0⟩, ⟨2, 0x63, 0, 0⟩, ⟨2, 0x62, 0, 0⟩,
      ⟨0, 0, 0, 0⟩]) := by decide +kernel

/-- D10: the stop position one bit short. -/
theorem test_decode_stop_short :
    after (exec .decode (loaded Config.ref [0x40, 0, 0, 0x18, 0x50, 0, 0, 6, 0x38, 0, 0, 3, 0x10, 0xFF])) errRecord =
    some ⟨2, 109, 110, 109⟩ := by decide +kernel

/-- L4 and L5, run by the step from the accepted word. -/
theorem test_step_illegal :
    after (step (State.reset.withFetchWord 32 0x8)) (fun t => (t.status, errRecord t, t.lastCmd)) =
      some (0x06, ⟨5, 0x8, 0, 0⟩, 0x8) ∧
    after (step (State.reset.withFetchWord 32 0x12)) (fun t => (errRecord t, t.freqN)) =
      some (⟨5, 0x12, 0, 0⟩, 0) ∧
    after (step (State.reset.withFetchWord 32 0x80000005)) errRecord = some ⟨5, 0x80000005, 0, 0⟩ := by
  decide +kernel

/-- C2 and W3, run by the step after reset. -/
theorem test_step_from_reset :
    after (step (State.reset.withFetchWord 32 0x2)) (fun t => (t.status, t.freqN)) = some (0x02, 0) ∧
    after (step (State.reset.withFetchWord 32 0x6)) (fun t => (t.status, errRecord t, t.root)) =
      some (0x06, ⟨1, 0, 0, 0⟩, 0xFFFFFFFF) := by decide +kernel

/-- L9, L10, L12: hazards while BUSY. -/
theorem test_hazards :
    (hostRead 0x44 (loaded Config.ref w1Text)).1 = 0 ∧
    (hostRead 0x44 (loaded Config.ref w1Text)).2.haz = true ∧
    (hostWrite 0x24 0x2 (loaded Config.ref w1Text)).lastCmd = 0 ∧
    ibufWord (hostWrite 0x01000000 0x7A (loaded Config.ref w1Text)).ibuf 0 = 0x61 := by decide +kernel

/-- L13: the first unmapped register address, and the element after the last of IBUF. -/
theorem test_unmapped :
    (hostRead 0x64 State.reset).1 = 0 ∧ locate Config.ref 0x01003FFC = .window .ibuf 0x3FFC ∧
    locate Config.ref 0x01004000 = .unmapped := by decide +kernel

/-! ### Reading a next state, and the paths of a tree -/

theorem exists_next {α : Type} {o : Host.Outcome State Fault Refusal} {f : State → α} {a : α}
    (h : after o f = some a) : ∃ t, o = .next t ∧ f t = a := by
  cases o with
  | next t => exact ⟨t, rfl, Option.some.inj h⟩
  | fault f => cases h
  | refused r => cases h

/-- A next state with a decidable property. -/
theorem exists_next_of {o : Host.Outcome State Fault Refusal} {p : State → Bool}
    (h : after o p = some true) : ∃ t, o = .next t ∧ p t = true := exists_next h

/-- What holds of every path of the list of R290 holds of every path that `follow` goes. -/
theorem follow_mem_pathsFrom {t : Tree} {c : Word} :
    ∀ {bs p : List Bool}, t.follow bs = some c → (c, p ++ bs) ∈ pathsFrom t p := by
  induction t with
  | leaf d =>
    intro bs p h
    cases bs with
    | nil => simp_all [Tree.follow, pathsFrom]
    | cons b bs => simp [Tree.follow] at h
  | node l r hl hr =>
    intro bs p h
    cases bs with
    | nil => simp [Tree.follow] at h
    | cons b bs =>
      cases b with
      | false =>
        have := hl (bs := bs) (p := p ++ [false]) (by simpa [Tree.follow] using h)
        simp only [pathsFrom, List.mem_append]; left; simpa using this
      | true =>
        have := hr (bs := bs) (p := p ++ [true]) (by simpa [Tree.follow] using h)
        simp only [pathsFrom, List.mem_append]; right; simpa using this

theorem paths_of_follow {t : Tree} {c : Word} {bs : List Bool} (h : t.follow bs = some c) :
    (c, bs) ∈ pathsFrom t [] := by simpa using follow_mem_pathsFrom (p := []) h

/-! ### Witnesses: the hypotheses of every statement are met -/

theorem witness_OpcodeMapSelectsCommands : 8 ≤ (0x8 : BitVec 4).toNat ∧ 8 ≤ (0xF : BitVec 4).toNat := by decide

theorem witness_ExactlyEightWordsAreLegal :
    7 < (0x8 : Word).toNat ∧ 7 < (0x10 : Word).toNat ∧ 7 < (0xFFFFFFFF : Word).toNat := by decide

theorem witness_DecodeInvertsEncode :
    (Instr.nop).wellFormed = true ∧ (Instr.decode).wellFormed = true ∧ (Instr.reservedOp 8).wellFormed = true ∧
    (Instr.reservedOp 15).wellFormed = true ∧ (Instr.rsvdBit4 0xFFFFFFFF).wellFormed = true ∧
    (Instr.rsvdBit31 0x80000007).wellFormed = true := by decide

/-- No host event left; and one left, with none to come before the completion. -/
theorem witness_StepRunsTheAcceptedCommand :
    (loaded Config.ref []).busy = true ∧ (loaded Config.ref []).pending = [] ∧
    ({ loaded Config.ref [] with pending := [.read 0] } : State).busyTurns = 0 := by decide

theorem witness_OtherwiseTheHostMoves :
    ({ State.reset with pending := [.read 0] } : State).busy = false ∧
    ({ loaded Config.ref [] with pending := [.read 0], busyTurns := 1 } : State).busyTurns ≠ 0 ∧
    State.reset.pending = [] ∧ State.reset.busy = false := by decide

theorem witness_CmdWriteWhileIdleIsAccepted : State.reset.busy = false := rfl

theorem witness_CmdWriteWhileBusyIsLost : (loaded Config.ref []).busy = true := rfl

/-- One address for each clause: CTRL, STATUS, CMD, ERR_CODE, a window, an unmapped address. -/
theorem witness_BusyAccessRule :
    (loaded Config.ref []).busy = true ∧ (loaded Config.ref []).locate 0x20 = .reg .ctrl ∧
    (loaded Config.ref []).locate 0x28 = .reg .status ∧ (loaded Config.ref []).locate 0x24 = .reg .cmd ∧
    (loaded Config.ref []).locate 0x2C = .reg .errCode ∧
    (loaded Config.ref []).locate 0x01000000 = .window .ibuf 0 ∧
    (loaded Config.ref []).locate 0x64 = .unmapped := by decide +kernel

theorem witness_IdleAccessIsNoHazard :
    State.reset.busy = false ∧ State.reset.locate 0x28 = .reg .status ∧ (0xE : Word).getLsbD 3 = true := by
  decide +kernel

/-- REF, SMALL and the least and greatest parameters; the last index of each window of REF. -/
theorem witness_AddressMapPlacesRegistersAndWindows :
    Config.ref.wf ∧ Config.small.wf ∧ Config.wf ⟨1, 1, 1, 1, 0⟩ ∧
    Config.wf ⟨2 ^ 18, 2 ^ 22, 2 ^ 22, 64, 0xFFFFFFFC⟩ ∧
    4095 < Config.ref.inCap ∧ 16383 < Config.ref.outCap ∧ 255 < Config.ref.nSym ∧ 510 < Config.ref.nodeCap := by
  decide

/-- Idle, with the last element of each window of REF. -/
theorem witness_HostReadsGiveTheNamedState :
    State.reset.busy = false ∧ State.reset.cfg.wf ∧ 4095 < State.reset.cfg.inCap ∧ 16383 < State.reset.cfg.outCap ∧
    255 < State.reset.cfg.nSym ∧ 510 < State.reset.cfg.nodeCap := by decide

/-- The holes at 0x18, 0x3C and 0x64, and the word behind each window of SMALL. -/
theorem witness_UnmappedReadsZeroAndIgnoresWrites :
    State.reset.locate 0x18 = .unmapped ∧ State.reset.locate 0x3C = .unmapped ∧
    State.reset.locate 0x64 = .unmapped ∧ (loaded Config.small []).locate 0x01000040 = .unmapped ∧
    (loaded Config.small []).locate 0x02000020 = .unmapped ∧ (loaded Config.small []).locate 0x03000020 = .unmapped ∧
    (loaded Config.small []).locate 0x040000E0 = .unmapped ∧ (loaded Config.small []).locate 0x05000040 = .unmapped ∧
    State.reset.busy = false ∧ (loaded Config.small []).busy = true := by decide +kernel

theorem witness_ReadOnlyWritesAreIgnored :
    State.reset.busy = false ∧ State.reset.locate 0x00 = .reg .id ∧ State.reset.locate 0x60 = .reg .stopPos ∧
    State.reset.locate 0x02000000 = .window .obuf 0 ∧ State.reset.locate 0x0200FFFC = .window .obuf 0xFFFC ∧
    State.reset.locate 0x04000000 = .window .node 0 ∧ State.reset.locate 0x05000FFC = .window .code 0xFFC := by
  decide +kernel

theorem witness_MisalignedAddressIsRefused :
    (0x1 : Word).toNat % 4 ≠ 0 ∧ (0x2 : Word).toNat % 4 ≠ 0 ∧ (0xFFFFFFFF : Word).toNat % 4 ≠ 0 := by decide

theorem witness_EveryTransactionIsAnswered :
    (0x0 : Word).toNat % 4 = 0 ∧ (0xFFFFFFFC : Word).toNat % 4 = 0 := by decide

theorem witness_StatusReadsMaskedWhileBusy :
    (loaded Config.ref []).busy = true ∧ State.reset.busy = false ∧ 6 ≤ 31 := by decide

theorem witness_IrqFollowsDoneAndEnable :
    (∃ t, exec .nop (loaded Config.ref []) = .next t) ∧ (0x2 : Word).getLsbD 1 = true ∧
    (0x2 : Word).getLsbD 0 = false ∧ (0x1 : Word).getLsbD 0 = true ∧
    ({ State.reset with done := true } : State).done = true ∧ State.reset.busy = false :=
  ⟨⟨_, rfl⟩, by decide⟩

/-- The first and the last word of IBUF and of FREQ, and a byte of each further clause. -/
theorem witness_WrittenWindowWordsReadBack :
    State.reset.busy = false ∧ State.reset.locate 0x01000000 = .window .ibuf 0 ∧
    State.reset.locate 0x01003FFC = .window .ibuf 0x3FFC ∧ State.reset.locate 0x03000000 = .window .freq 0 ∧
    State.reset.locate 0x030007FC = .window .freq 0x7FC ∧ Win.obuf ≠ Win.ibuf ∧ 0x3FFB < 0x3FFC ∧ 0 + 4 ≤ 4 := by
  decide +kernel

theorem witness_WrittenRegistersReadBack : State.reset.busy = false := rfl

/-- A reset during a command and a reset of the idle block, of one instance. -/
theorem witness_ResetAbandonsARunningCommand :
    (loaded Config.ref w1Text).cfg = State.reset.cfg ∧ (loaded Config.ref w1Text).pending = State.reset.pending ∧
    (loaded Config.ref w1Text).draws = State.reset.draws ∧ (loaded Config.ref w1Text).busy = true := by decide

theorem witness_ResetStateIsSound : State.reset.cfg.wf := by decide

theorem witness_IllegalWordsCompleteWithIllegalCommand :
    (Instr.reservedOp 8).illegal = true ∧ (Instr.rsvdBit31 0x80000000).illegal = true ∧
    State.reset.busy = false ∧ 7 < (0x8 : Word).toNat := by decide

/-! #### COUNT -/

/-- A list checked element by element: `decide` on a bounded `∀` over words would go through all words. -/
theorem of_all {α : Type} {l : List α} {p : α → Bool} (h : l.all p = true) : ∀ c ∈ l, p c = true :=
  List.all_eq_true.mp h

theorem countable_of {s : State} (hl : s.inLen.toNat ≤ s.cfg.inCap)
    (hv : s.text.all validCodePoint = true) (hn : s.text.length ≤ s.cfg.nSym) : s.Countable :=
  ⟨hl, of_all hv, Nat.le_trans (List.dedup_sublist _).length_le hn⟩

/-- W1; the empty text (C2); as many characters as entries (C6). -/
theorem witness_CountTabulatesTheText :
    Config.ref.wf ∧ (loaded Config.ref w1Text).Countable ∧ (loaded Config.ref []).Countable ∧
    Config.small.wf ∧ (loaded Config.small [0x61, 0x62, 0x63, 0x64]).Countable :=
  ⟨by decide, countable_of (by decide +kernel) (by decide +kernel) (by decide +kernel),
    countable_of (by decide +kernel) (by decide +kernel) (by decide +kernel), by decide,
    countable_of (by decide +kernel) (by decide +kernel) (by decide +kernel)⟩

/-- The other clause: COUNT of W1 succeeds. -/
theorem witness_CountTabulatesTheText_success :
    (loaded Config.ref w1Text).err = false ∧ ∃ t, exec .count (loaded Config.ref w1Text) = .next t ∧ t.err = false :=
  ⟨rfl, exists_next (by decide +kernel)⟩

/-- Each clause in SMALL: IN_LEN one too many (C4); an invalid element (C3); the fifth character (C5). -/
theorem witness_CountReportsTheFirstError :
    Config.small.inCap < ({ State.resetAt Config.small [] 0 with inLen := 17 } : State).inLen.toNat ∧
    (loaded Config.small [0x61, 0xD800]).text[1]? = some 0xD800 ∧ validCodePoint 0xD800 = false ∧
    (∀ x ∈ (loaded Config.small [0x61, 0xD800]).text.take 1, validCodePoint x = true) ∧
    (loaded Config.small [0x61, 0x62, 0x63, 0x64, 0x65]).text[4]? = some 0x65 ∧
    (∀ x ∈ (loaded Config.small [0x61, 0x62, 0x63, 0x64, 0x65]).text.take 4, validCodePoint x = true) ∧
    (0x65 : Word) ∉ (loaded Config.small [0x61, 0x62, 0x63, 0x64, 0x65]).text.take 4 ∧
    ((loaded Config.small [0x61, 0x62, 0x63, 0x64, 0x65]).text.take 4).dedup.length = Config.small.nSym := by
  have fifth : (loaded Config.small [0x61, 0x62, 0x63, 0x64, 0x65]).text.take 4 = [0x61, 0x62, 0x63, 0x64] := by
    decide +kernel
  refine ⟨by decide +kernel, by decide +kernel, by decide, of_all (by decide +kernel), by decide +kernel,
    of_all (by decide +kernel), ?_, ?_⟩ <;> rw [fifth]
  · decide
  · rw [List.Nodup.dedup (by decide)]; decide

/-! #### BUILD -/

theorem freqOk_of {s : State} (hn : 1 ≤ s.freqN.toNat ∧ s.freqN.toNat ≤ s.cfg.nSym)
    (hv : ∀ i < s.freqN.toNat, validCodePoint (freqEntry s.freq i).sym = true)
    (ha : ∀ i < s.freqN.toNat, i + 1 < s.freqN.toNat →
      (freqEntry s.freq i).sym.toNat < (freqEntry s.freq (i + 1)).sym.toNat) : s.FreqOk :=
  ⟨hn.1, hn.2, hv, fun i h => ha i (by omega) h⟩

/-- One entry, and as many as SMALL has. -/
theorem witness_BuildMakesTheTree :
    Config.small.wf ∧ (freqLoaded Config.small [⟨0x61, 0⟩]).FreqOk ∧
    (freqLoaded Config.small [⟨0x61, 1⟩, ⟨0x62, 1⟩, ⟨0x63, 2⟩, ⟨0x64, 4⟩]).FreqOk :=
  ⟨by decide, freqOk_of (by decide +kernel) (by decide +kernel) (by decide +kernel),
    freqOk_of (by decide +kernel) (by decide +kernel) (by decide +kernel)⟩

/-- The other clause: BUILD of one entry succeeds. -/
theorem witness_BuildMakesTheTree_success :
    (freqLoaded Config.small [⟨0x61, 0⟩]).err = false ∧
    ∃ t, exec .build (freqLoaded Config.small [⟨0x61, 0⟩]) = .next t ∧ t.err = false :=
  ⟨rfl, exists_next (by decide +kernel)⟩

/-- W1: the nodes 3 and 4 are merges. -/
theorem witness_BuildMergesTheTwoLeastKeys :
    Config.ref.wf ∧ (freqLoaded Config.ref [⟨0x61, 3⟩, ⟨0x62, 2⟩, ⟨0x63, 1⟩]).FreqOk ∧
    ∃ t, exec .build (freqLoaded Config.ref [⟨0x61, 3⟩, ⟨0x62, 2⟩, ⟨0x63, 1⟩]) = .next t ∧ t.nodeN = 5 :=
  ⟨by decide, freqOk_of (by decide +kernel) (by decide +kernel) (by decide +kernel),
    exists_next (by decide +kernel)⟩

/-- B4; B10; B7; B6. -/
theorem witness_BuildReportsTheFirstError :
    State.reset.freqN = 0 ∧ Config.small.nSym < ({ State.resetAt Config.small [] 0 with freqN := 5 } : State).freqN.toNat ∧
    validCodePoint (freqEntry (freqLoaded Config.ref [⟨0x61, 1⟩, ⟨0xDFFF, 1⟩]).freq 0).sym = true ∧
    validCodePoint (freqEntry (freqLoaded Config.ref [⟨0x61, 1⟩, ⟨0xDFFF, 1⟩]).freq 1).sym = false ∧
    validCodePoint (freqEntry (freqLoaded Config.ref [⟨0x61, 1⟩, ⟨0x61, 1⟩]).freq 1).sym = true ∧
    (freqEntry (freqLoaded Config.ref [⟨0x61, 1⟩, ⟨0x61, 1⟩]).freq 1).sym.toNat ≤
      (freqEntry (freqLoaded Config.ref [⟨0x61, 1⟩, ⟨0x61, 1⟩]).freq 0).sym.toNat := by decide +kernel

/-! #### GENCODES -/

/-- W1, in SMALL: its longest codes have the length L_MAX. -/
theorem witness_GencodesAssignsThePaths :
    Config.small.wf ∧ (withTree w1Nodes 4 (loaded Config.small [])).treeValid = true ∧
    (withTree w1Nodes 4 (loaded Config.small [])).tree = some w1Tree ∧ w1Tree.leaves ≤ Config.small.nSym ∧
    (∀ bs c, w1Tree.follow bs = some c → bs.length ≤ Config.small.lMax) ∧
    (∀ bs bs' c, w1Tree.follow bs = some c → w1Tree.follow bs' = some c → bs = bs') := by
  refine ⟨by decide, rfl, by decide +kernel, by decide, fun bs c h => ?_, fun bs bs' c h h' => ?_⟩
  · have all : ∀ p ∈ pathsFrom w1Tree [], p.2.length ≤ Config.small.lMax := by decide
    exact all _ (paths_of_follow h)
  · have all : ∀ p ∈ pathsFrom w1Tree [], ∀ q ∈ pathsFrom w1Tree [], p.1 = q.1 → p.2 = q.2 := by decide
    exact all _ (paths_of_follow h) _ (paths_of_follow h') rfl

/-- A single character (G3). -/
theorem witness_GencodesAssignsThePaths_single :
    (withTree [.leaf 0x78 4] 0 (loaded Config.small [])).tree = some (.leaf 0x78) ∧
    (∀ bs c, (Machine.Tree.leaf 0x78).follow bs = some c → bs.length ≤ Config.small.lMax) ∧
    (∀ bs bs' c, (Machine.Tree.leaf 0x78).follow bs = some c → (Machine.Tree.leaf 0x78).follow bs' = some c → bs = bs') := by
  refine ⟨by decide +kernel, fun bs c h => ?_, fun bs bs' c h h' => ?_⟩
  · cases bs with
    | nil => decide
    | cons b bs => cases h
  · cases bs with
    | nil => cases bs' with
      | nil => rfl
      | cons b bs => cases h'
    | cons b bs => cases h

def g4Nodes : List Node :=
  [.leaf 0x61 1, .leaf 0x62 1, .leaf 0x63 2, .leaf 0x64 4, .internal 0 1 2, .internal 2 4 4, .internal 3 5 8]

def g4Tree : Tree := .node (.leaf 0x64) (.node (.leaf 0x63) (.node (.leaf 0x61) (.leaf 0x62)))

/-- G6, and G4: two codes are too long, of `a` and `b`. -/
theorem witness_GencodesReportsTheFirstError_tooLong :
    (loaded Config.ref []).treeValid = false ∧ (withTree g4Nodes 6 (loaded Config.small [])).tree = some g4Tree ∧
    g4Tree.follow [true, true, false] = some 0x61 ∧ Config.small.lMax < [true, true, false].length ∧
    (∀ bs' c', g4Tree.follow bs' = some c' → Config.small.lMax < bs'.length → (0x61 : Word).toNat ≤ c'.toNat) ∧
    (∀ bs', g4Tree.follow bs' = some 0x61 → bs'.length ≤ [true, true, false].length) := by
  refine ⟨rfl, by decide +kernel, by decide, by decide, fun bs c h hl => ?_, fun bs h => ?_⟩
  · have all : ∀ p ∈ pathsFrom g4Tree [], Config.small.lMax < p.2.length → (0x61 : Word).toNat ≤ p.1.toNat := by
      decide
    exact all _ (paths_of_follow h) hl
  · have all : ∀ p ∈ pathsFrom g4Tree [], p.2.length ≤ 3 := by decide
    exact all _ (paths_of_follow h)

/-- The tree `0 1a 1a`. -/
def aaTree : Tree := .node (.leaf 0x61) (.leaf 0x61)

/-- G7. -/
theorem witness_GencodesReportsTheFirstError_duplicate :
    (withTree [.internal 1 2 0, .leaf 0x61 0, .leaf 0x61 0] 0 (loaded Config.ref [])).tree =
      some aaTree ∧
    (∀ bs c, aaTree.follow bs = some c → bs.length ≤ Config.ref.lMax) ∧
    aaTree.follow [false] = some 0x61 ∧
    aaTree.follow [true] = some 0x61 ∧ [false] ≠ [true] ∧
    (∀ bs₁ bs₂ c₁, aaTree.follow bs₁ = some c₁ →
      aaTree.follow bs₂ = some c₁ → bs₁ ≠ bs₂ → (0x61 : Word).toNat ≤ c₁.toNat) := by
  refine ⟨by decide +kernel, fun bs c h => ?_, by decide, by decide, by decide, fun bs _ c h _ _ => ?_⟩
  · have all : ∀ p ∈ pathsFrom aaTree [], p.2.length ≤ Config.ref.lMax := by decide
    exact all _ (paths_of_follow h)
  · have all : ∀ p ∈ pathsFrom aaTree [], (0x61 : Word).toNat ≤ p.1.toNat := by decide
    exact all _ (paths_of_follow h)

/-! #### Sound states -/

/-- A state without a tree is sound when its windows are in order. -/
theorem sound_of_no_tree {s : State} (hc : s.cfg.wf) (hm : s.MemoryOk) (ht : s.treeValid = false) (hn : s.nodeN = 0)
    (hr : s.root = NIL) (hv : s.codesValid = false) (hk : s.codeN = 0) : s.Sound :=
  ⟨hc, hm, ⟨fun _ => ⟨hn, hr⟩, fun _ => hk⟩, fun h => absurd h (by simp [ht]), fun h => absurd h (by simp [hv])⟩

theorem sound_loaded : (loaded Config.ref w1Text).Sound :=
  sound_of_no_tree (by decide) (fun w => by cases w <;> decide +kernel) rfl rfl rfl rfl rfl

/-- `"ab"` after BUILD, in SMALL. -/
def abBuilt : State := withTree [.leaf 0x61 1, .leaf 0x62 1, .internal 0 1 2] 2 (loaded Config.small [])

theorem sound_abBuilt : abBuilt.Sound := by
  refine ⟨by decide, fun w => by cases w <;> decide +kernel, ⟨fun h => absurd h (by decide), fun _ => rfl⟩,
    fun _ => ?_, fun h => absurd h (by decide)⟩
  unfold State.TreeOk; decide +kernel

/-- `"ab"` after GENCODES, in SMALL. -/
theorem sound_abState : (abState Config.small [0x61, 0x62]).Sound := by
  refine ⟨by decide, fun w => by cases w <;> decide +kernel,
    ⟨fun h => absurd h (by decide), fun h => absurd h (by decide)⟩, fun _ => ?_, fun _ => ⟨rfl, ?_, ?_⟩⟩
  · unfold State.TreeOk; decide +kernel
  · exact ⟨abTree, [⟨0x61, 1, 0⟩, ⟨0x62, 1, 1⟩], by decide +kernel, by rfl, by decide +kernel, by decide +kernel⟩
  · decide +kernel

theorem witness_CodesArePrefixFree :
    abBuilt.Sound ∧ ∃ u, exec .gencodes abBuilt = .next u ∧ (u.codesValid = true ∧ u.codeN = 2) :=
  ⟨sound_abBuilt, by
    obtain ⟨u, h, hu⟩ := exists_next (o := exec .gencodes abBuilt) (f := fun u => (u.codesValid, u.codeN))
      (a := (true, 2)) (by decide +kernel)
    exact ⟨u, h, by simpa using hu⟩⟩

/-! #### SERIALIZE and ENCODE -/

/-- S1b: `"cab"` with the tree and the codes of W1. -/
def cabState : State := withCodes w1Codes (withTree w1Nodes 4 (loaded Config.ref [0x63, 0x61, 0x62]))

theorem witness_SerializeWritesTheStream :
    cabState.cfg.wf ∧ cabState.treeValid = true ∧ cabState.codesValid = true ∧ cabState.tree = some w1Tree ∧
    w1Codes = codeEntries cabState.code cabState.codeN.toNat ∧ 1 ≤ cabState.inLen.toNat ∧
    cabState.inLen.toNat ≤ cabState.cfg.inCap ∧
    (∀ c ∈ cabState.text, validCodePoint c = true ∧ ∃ e ∈ w1Codes, e.sym = c) ∧
    streamBytes (w1Tree.bits ++ cabState.text.flatMap (codeBitsOf w1Codes)).length ≤ cabState.cfg.outCap := by
  refine ⟨by decide, rfl, rfl, by decide +kernel, by decide +kernel, by decide, by decide, fun c hc => ?_,
    by decide +kernel⟩
  have all := of_all (l := cabState.text) (p := fun c => validCodePoint c && w1Codes.any (fun e => e.sym = c))
    (by decide +kernel) c hc
  simpa using all

/-- S10, S15 and S12. -/
theorem witness_SerializeReportsTheFirstError :
    (loaded Config.ref []).treeValid = false ∧ (abState Config.small []).treeValid = true ∧
    (abState Config.small []).codesValid = true ∧ (abState Config.small []).inLen = 0 ∧
    Config.small.inCap < ({ abState Config.small [] with inLen := 17 } : State).inLen.toNat := by decide

/-- S13 and S14 in SMALL: the stream up to the third character, the second character, fits. -/
theorem witness_SerializeReportsTheFirstError_text :
    (abState Config.small [0x61, 0x62, 0x63]).tree = some abTree ∧
    codeEntries (abState Config.small [0x61, 0x62, 0x63]).code 2 = [⟨0x61, 1, 0⟩, ⟨0x62, 1, 1⟩] ∧
    (abState Config.small [0x61, 0x62, 0x63]).text[2]? = some 0x63 ∧ validCodePoint 0x63 = true ∧
    (∀ e ∈ ([⟨0x61, 1, 0⟩, ⟨0x62, 1, 1⟩] : List CodeEntry), e.sym ≠ 0x63) ∧
    (∀ x ∈ (abState Config.small [0x61, 0x62, 0x63]).text.take 2, validCodePoint x = true ∧
      ∃ e ∈ ([⟨0x61, 1, 0⟩, ⟨0x62, 1, 1⟩] : List CodeEntry), e.sym = x) ∧
    (abTree.bits ++ (List.flatMap (codeBitsOf [⟨0x61, 1, 0⟩, ⟨0x62, 1, 1⟩]) [0x61, 0x62])).length / 8 ≤
      Config.small.outCap ∧
    (abState Config.small [0x61, 0x110000]).text[1]? = some 0x110000 ∧ validCodePoint 0x110000 = false := by
  refine ⟨by decide +kernel, by decide +kernel, by decide +kernel, by decide, by decide, fun c hc => ?_,
    by decide +kernel, by decide +kernel, by decide⟩
  have all := of_all (l := (abState Config.small [0x61, 0x62, 0x63]).text.take 2)
    (p := fun c => validCodePoint c && [(⟨0x61, 1, 0⟩ : CodeEntry), ⟨0x62, 1, 1⟩].any (fun e => e.sym = c))
    (by decide +kernel) c hc
  simpa using all

/-- OUT_CAP elements are full before the sixth character: 67 + 5 bits are 9 bytes. -/
theorem witness_SerializeReportsTheFirstError_capacity :
    (abState Config.small [0x61, 0x61, 0x61, 0x61, 0x61, 0x61]).text[5]? = some 0x61 ∧
    Config.small.outCap <
      (abTree.bits ++ (List.flatMap (codeBitsOf [⟨0x61, 1, 0⟩, ⟨0x62, 1, 1⟩])
        [0x61, 0x61, 0x61, 0x61, 0x61])).length / 8 := by
  refine ⟨?_, ?_⟩ <;> decide +kernel

/-- S16: the 69 bits of `"ab"` fit SMALL, its trailer does not. -/
theorem witness_SerializeReportsTheFirstError_trailer :
    (abState Config.small [0x61, 0x62]).tree = some abTree ∧ (abState Config.small [0x61, 0x62]).inLen ≠ 0 ∧
    (∀ x ∈ (abState Config.small [0x61, 0x62]).text, validCodePoint x = true ∧
      ∃ e ∈ ([⟨0x61, 1, 0⟩, ⟨0x62, 1, 1⟩] : List CodeEntry), e.sym = x) ∧
    Config.small.outCap < streamBytes (abTree.bits ++
      (abState Config.small [0x61, 0x62]).text.flatMap (codeBitsOf [⟨0x61, 1, 0⟩, ⟨0x62, 1, 1⟩])).length := by
  refine ⟨by decide +kernel, by decide, fun c hc => ?_, by decide +kernel⟩
  have all := of_all (l := (abState Config.small [0x61, 0x62]).text)
    (p := fun c => validCodePoint c && [(⟨0x61, 1, 0⟩ : CodeEntry), ⟨0x62, 1, 1⟩].any (fun e => e.sym = c))
    (by decide +kernel) c hc
  simpa using all

theorem witness_EncodeIsTheFourCommands : (loaded Config.ref w1Text).err = false := rfl

theorem exists_ok {α β : Type} {e : Except CmdError α} {f : α → β} {b : β} (h : (e.toOption.map f) = some b) :
    ∃ r, e = .ok r ∧ f r = b := by
  cases e with
  | error e => cases h
  | ok r => exact ⟨r, rfl, Option.some.inj h⟩

def w1Freq : List FreqEntry := [⟨0x61, 3⟩, ⟨0x62, 2⟩, ⟨0x63, 1⟩]

/-- W1. -/
theorem witness_EncodeCompletesWithAllResults :
    Config.ref.wf ∧ (loaded Config.ref w1Text).inLen.toNat ≤ Config.ref.inCap ∧
    countText Config.ref.nSym 0 (loaded Config.ref w1Text).text [] = .ok w1Freq ∧ w1Freq ≠ [] ∧
    builtTree Config.ref.nodeCap w1Freq = some w1Tree ∧ codeTable Config.ref.lMax w1Tree = .ok w1Codes ∧
    ∃ r, serialize Config.ref.outCap w1Tree w1Codes (loaded Config.ref w1Text).text = .ok r ∧ r.payloadLen = 9 := by
  have text : (loaded Config.ref w1Text).text = w1Text := by decide +kernel
  refine ⟨by decide, by decide, ?_, by decide, by decide +kernel, by rfl, ?_⟩
  · rw [text]; rfl
  · exact exists_ok (f := Stream.payloadLen) (by rw [text]; decide +kernel)

/-! #### DECODE -/

/-- The payload of W1's stream in whole codes: `0 0 0 11 11 10`. -/
def w1Words : List (List Bool) := [[false], [false], [false], [true, true], [true, true], [true, false]]

theorem w1_wellFormed :
    WellFormedStream Config.ref (loaded Config.ref w1Stream).ibuf (loaded Config.ref w1Stream).inLen.toNat w1Tree
      w1Text := by
  refine ⟨⟨of_all (by decide), ?_, ?_, ?_⟩, ?_, ?_, ⟨w1Words, ?_, ?_⟩, ?_⟩ <;> decide +kernel

/-- D4: the single-character stream of the empty text, `80 00 00 3C 03`. -/
theorem d4_wellFormed :
    WellFormedStream Config.ref (loaded Config.ref [0x80, 0, 0, 0x3C, 3]).ibuf 5 (.leaf 0x78) [] := by
  refine ⟨⟨of_all (by decide), ?_, ?_, ?_⟩, ?_, ?_, ⟨[], ?_, ?_⟩, ?_⟩ <;> decide +kernel

theorem witness_DecodeReadsAWellFormedStream :
    Config.ref.wf ∧ (loaded Config.ref w1Stream).inLen.toNat ≤ Config.ref.inCap ∧
    WellFormedStream Config.ref (loaded Config.ref w1Stream).ibuf (loaded Config.ref w1Stream).inLen.toNat w1Tree
      w1Text ∧ (0 : Nat) < w1Text.length :=
  ⟨by decide, by decide, w1_wellFormed, by decide⟩

/-- The other clause: D4 is accepted, with the empty text. -/
theorem witness_DecodeReadsAWellFormedStream_success :
    WellFormedStream Config.ref (loaded Config.ref [0x80, 0, 0, 0x3C, 3]).ibuf 5 (.leaf 0x78) [] ∧
    ∃ u, exec .decode (loaded Config.ref [0x80, 0, 0, 0x3C, 3]) = .next u ∧ u.treeValid = true :=
  ⟨d4_wellFormed, exists_next (by decide +kernel)⟩

theorem witness_DecodeAcceptsExactlyWellFormedStreams :
    Config.ref.wf ∧ (loaded Config.ref []).inLen.toNat ≤ Config.ref.inCap ∧
    (loaded Config.ref w1Stream).inLen.toNat ≤ Config.ref.inCap := by decide

/-- W1 encoded, and its stream loaded for DECODE. -/
theorem witness_DecodeInvertsEncodeCommand :
    (loaded Config.ref w1Text).cfg.wf ∧ (loaded Config.ref w1Text).err = false ∧
    (loaded Config.ref w1Stream).cfg = (loaded Config.ref w1Text).cfg ∧
    (loaded Config.ref w1Text).inLen.toNat ≤ Config.ref.outCap ∧
    ∃ u, exec .encode (loaded Config.ref w1Text) = .next u ∧
      (u.err = false ∧ u.outLen.toNat ≤ Config.ref.inCap ∧ (loaded Config.ref w1Stream).inLen = u.outLen ∧
        ∀ k < u.outLen.toNat, ibufWord (loaded Config.ref w1Stream).ibuf k = ibufWord u.obuf k) := by
  refine ⟨by decide, rfl, rfl, by decide, ?_⟩
  obtain ⟨u, h, hu⟩ := exists_next_of (o := exec .encode (loaded Config.ref w1Text))
    (p := fun u => decide (u.err = false) && decide (u.outLen.toNat ≤ Config.ref.inCap) &&
      decide ((loaded Config.ref w1Stream).inLen = u.outLen) &&
      decide (∀ k < u.outLen.toNat, ibufWord (loaded Config.ref w1Stream).ibuf k = ibufWord u.obuf k))
    (by decide +kernel)
  simp only [Bool.and_eq_true, decide_eq_true_eq] at hu
  exact ⟨u, h, hu.1.1.1, hu.1.1.2, hu.1.2, hu.2⟩

theorem treeBeginsWith_of {c : Config} {m : Memory} {n : Nat} {xs : List (Option Word)} (ho : 0 < emptySlots 1 xs)
    (hv : xs.all (fun x => (x.map validCodePoint).getD true) = true) (hc : xs.length ≤ c.nodeCap)
    (hl : (xs.flatMap nodeBits).length ≤ 8 * n)
    (hb : (List.range (xs.flatMap nodeBits).length).map (streamBit m) = xs.flatMap nodeBits) :
    TreeBeginsWith c m n xs :=
  ⟨ho, fun x hx => by simpa using of_all hv _ hx, hc, hl, hb⟩

/-- D6: eight Internal nodes, and no bit more. -/
theorem witness_DecodeReportsTreeRegionErrors_tag :
    TreeBeginsWith Config.ref (loaded Config.ref [0]).ibuf 1 (List.replicate 8 none) ∧
    ((List.replicate 8 (none : Option Word)).flatMap nodeBits).length = 8 * 1 :=
  ⟨treeBeginsWith_of (by decide) (by decide) (by decide) (by decide) (by decide +kernel), by decide⟩

/-- D14, with the first byte: seven Internal nodes fill SMALL. -/
theorem witness_DecodeReportsTreeRegionErrors_capacity :
    TreeBeginsWith Config.small (loaded Config.small [0]).ibuf 1 (List.replicate 7 none) ∧
    ((List.replicate 7 (none : Option Word)).flatMap nodeBits).length < 8 * 1 ∧
    (List.replicate 7 (none : Option Word)).length = Config.small.nodeCap :=
  ⟨treeBeginsWith_of (by decide) (by decide) (by decide) (by decide) (by decide +kernel), by decide, by decide⟩

/-- D7: W1's stream cut in the character of the second Leaf. -/
theorem witness_DecodeReportsTreeRegionErrors_cut :
    TreeBeginsWith Config.ref (loaded Config.ref [0x40, 0, 0, 0x18, 0x50]).ibuf 5 [none, some 0x61, none] ∧
    (([none, some 0x61, none] : List (Option Word)).flatMap nodeBits).length = 35 ∧
    streamBit (loaded Config.ref [0x40, 0, 0, 0x18, 0x50]).ibuf 35 = true ∧ 8 * 5 < 35 + 33 :=
  ⟨treeBeginsWith_of (by decide) (by decide) (by decide) (by decide) (by decide +kernel), by decide,
    by decide +kernel, by decide⟩

/-- D12: the second Leaf holds 0xD800. -/
theorem witness_DecodeReportsTreeRegionErrors_character :
    TreeBeginsWith Config.ref (loaded Config.ref [0x40, 0, 0, 0x18, 0x60, 0, 0x1B, 0, 0xF]).ibuf 9 [none, some 0x61] ∧
    (([none, some 0x61] : List (Option Word)).flatMap nodeBits).length = 34 ∧
    streamBit (loaded Config.ref [0x40, 0, 0, 0x18, 0x60, 0, 0x1B, 0, 0xF]).ibuf 34 = true ∧ 34 + 33 ≤ 8 * 9 ∧
    (List.range 32).map (fun k => streamBit (loaded Config.ref
      [0x40, 0, 0, 0x18, 0x60, 0, 0x1B, 0, 0xF]).ibuf (34 + 1 + k)) = wordBits 0xD800 ∧
    validCodePoint 0xD800 = false :=
  ⟨treeBeginsWith_of (by decide) (by decide) (by decide) (by decide) (by decide +kernel), by decide,
    by decide +kernel, by decide, by decide +kernel, by decide⟩

/-- D16; D5; D11. -/
theorem witness_DecodeReportsTheFirstError :
    Config.small.inCap < ({ State.resetAt Config.small [] 0 with inLen := 17 } : State).inLen.toNat ∧
    (loaded Config.ref []).inLen.toNat = 0 ∧ 33 ≤ 8 * 5 ∧
    streamBit (loaded Config.ref [0x80, 8, 0x80, 0, 4]).ibuf 0 = true ∧
    (List.range 32).map (fun k => streamBit (loaded Config.ref [0x80, 8, 0x80, 0, 4]).ibuf (1 + k)) =
      wordBits 0x110000 ∧
    validCodePoint 0x110000 = false := by
  refine ⟨?_, ?_, ?_, ?_, ?_, ?_⟩ <;> decide +kernel

/-- W1's tree region: D8a (stop position before its end). -/
theorem witness_DecodeReportsTheFirstError_trailer :
    TreeRegionOf Config.ref (loaded Config.ref [0x40, 0, 0, 0x18, 0x50, 0, 0, 6, 0x38, 0, 0, 3, 0x10]).ibuf 13 w1Tree ∧
    w1Tree.bits.length + 3 ≤ 8 * 13 ∧
    stopOf (loaded Config.ref [0x40, 0, 0, 0x18, 0x50, 0, 0, 6, 0x38, 0, 0, 3, 0x10]).ibuf 13 < w1Tree.bits.length := by
  refine ⟨⟨of_all (by decide), ?_, ?_, ?_⟩, ?_, ?_⟩ <;> decide +kernel

/-- The tree region of D2, 135 bits, in 136: no room for the trailer field. -/
theorem witness_DecodeReportsTheFirstError_room :
    TreeRegionOf Config.ref (loaded Config.ref
      [0x20, 0, 0, 0x0C, 0x30, 0, 0, 6, 0x24, 0, 0, 1, 0x8E, 0, 0, 0, 0xC8]).ibuf 17
      (.node (.node (.leaf 0x61) (.leaf 0x62)) (.node (.leaf 0x63) (.leaf 0x64))) ∧
    8 * 17 < (Machine.Tree.node (.node (.leaf 0x61) (.leaf 0x62)) (.node (.leaf 0x63) (.leaf 0x64))).bits.length + 3 := by
  refine ⟨⟨of_all (by decide), ?_, ?_, ?_⟩, ?_⟩ <;> decide +kernel

/-- D13: a 1 in the payload of the single-character stream `80 00 00 3C 27`. -/
theorem witness_DecodeReportsTheFirstError_single :
    TreeRegionOf Config.ref (loaded Config.ref [0x80, 0, 0, 0x3C, 0x27]).ibuf 5 (.leaf 0x78) ∧
    (Machine.Tree.leaf 0x78).bits.length + 3 ≤ 8 * 5 ∧
    (Machine.Tree.leaf 0x78).bits.length ≤ stopOf (loaded Config.ref [0x80, 0, 0, 0x3C, 0x27]).ibuf 5 ∧
    (payloadOf (loaded Config.ref [0x80, 0, 0, 0x3C, 0x27]).ibuf 5 (.leaf 0x78))[1]? = some true ∧
    (∀ b ∈ (payloadOf (loaded Config.ref [0x80, 0, 0, 0x3C, 0x27]).ibuf 5 (.leaf 0x78)).take 1, b = false) := by
  refine ⟨⟨of_all (by decide), ?_, ?_, ?_⟩, ?_, ?_, ?_, ?_⟩ <;> decide +kernel

def d10Stream : List Word := [0x40, 0, 0, 0x18, 0x50, 0, 0, 6, 0x38, 0, 0, 3, 0x10, 0xFF]

/-- D10: the payload `0 0 0 11 11 1`, its last code cut. -/
theorem witness_DecodeReportsTheFirstError_cut :
    TreeRegionOf Config.ref (loaded Config.ref d10Stream).ibuf 14 w1Tree ∧
    payloadOf (loaded Config.ref d10Stream).ibuf 14 w1Tree =
      [false, false, false, true, true, true, true] ++ [true] ∧
    SpellsText w1Tree [false, false, false, true, true, true, true] [0x61, 0x61, 0x61, 0x62, 0x62] ∧
    w1Tree.follow ([true] ++ [false]) = some 0x63 := by
  refine ⟨⟨of_all (by decide), ?_, ?_, ?_⟩, ?_, ⟨[[false], [false], [false], [true, true], [true, true]], ?_, ?_⟩, ?_⟩ <;>
    decide +kernel

/-- D15: 20 payload bits for 8 elements of OBUF. -/
theorem witness_DecodeReportsTheFirstError_capacity :
    TreeRegionOf Config.small (loaded Config.small [0x80, 0, 0, 0x3C, 0, 0, 7]).ibuf 7 (.leaf 0x78) ∧
    payloadOf (loaded Config.small [0x80, 0, 0, 0x3C, 0, 0, 7]).ibuf 7 (.leaf 0x78) =
      List.replicate 9 false ++ List.replicate 11 false ∧
    SpellsText (.leaf 0x78) (List.replicate 9 false) (List.replicate 9 0x78) ∧
    (List.replicate 9 (0x78 : Word)).length = Config.small.outCap + 1 := by
  refine ⟨⟨of_all (by decide), ?_, ?_, ?_⟩, ?_, ⟨List.replicate 9 [false], ?_, ?_⟩, ?_⟩ <;> decide +kernel

/-- W1's stream in two blocks, one with other bits [31:8] in IBUF and after an earlier command. -/
def d1Other : State :=
  { abState Config.ref (w1Stream.map (fun x => x ||| 0xABCD00)) with draws := 9 }

theorem witness_DecodeDependsOnItsStreamOnly :
    (loaded Config.ref w1Stream).cfg = d1Other.cfg ∧ (loaded Config.ref w1Stream).inLen = d1Other.inLen ∧
    (∀ k < (loaded Config.ref w1Stream).inLen.toNat,
      (ibufWord (loaded Config.ref w1Stream).ibuf k).toNat % 256 = (ibufWord d1Other.ibuf k).toNat % 256) ∧
    (∃ u, exec .decode (loaded Config.ref w1Stream) = .next u ∧ u.treeValid = true) ∧
    (∃ u, exec .decode d1Other = .next u ∧ u.treeValid = true) := by
  refine ⟨rfl, rfl, by decide +kernel, exists_next (by decide +kernel), exists_next (by decide +kernel)⟩

/-- The error clause: D5 in two blocks. -/
theorem witness_DecodeDependsOnItsStreamOnly_error :
    (∃ u, exec .decode (loaded Config.ref []) = .next u ∧ u.treeValid = false) ∧
    (∃ u, exec .decode (abState Config.ref []) = .next u ∧ u.treeValid = false) :=
  ⟨exists_next (by decide +kernel), exists_next (by decide +kernel)⟩

/-- E7: ENCODE after reset and after BUILD and GENCODES of another text. -/
theorem witness_EncodeDependsOnItsTextOnly :
    (loaded Config.ref w1Text).cfg = (abState Config.ref w1Text).cfg ∧
    (loaded Config.ref w1Text).inLen = (abState Config.ref w1Text).inLen ∧
    (loaded Config.ref w1Text).text = (abState Config.ref w1Text).text ∧
    (loaded Config.ref w1Text).err = false ∧ (abState Config.ref w1Text).err = false ∧
    (∃ u, exec .encode (loaded Config.ref w1Text) = .next u ∧ u.err = false) ∧
    (∃ u, exec .encode (abState Config.ref w1Text) = .next u ∧ u.err = false) ∧
    (∃ u, exec .encode (loaded Config.ref []) = .next u ∧ u.err = true) ∧
    (∃ u, exec .encode (abState Config.ref []) = .next u ∧ u.err = true) :=
  ⟨rfl, rfl, rfl, rfl, rfl, exists_next (by decide +kernel), exists_next (by decide +kernel),
    exists_next (by decide +kernel), exists_next (by decide +kernel)⟩

/-! #### All commands -/

/-- Every command answers a next state. -/
theorem witness_CommandsChangeOnlyTheirResults :
    (∃ t, exec .nop State.reset = .next t) ∧ (∃ t, exec .clear State.reset = .next t) ∧
    (∃ t, exec .count (loaded Config.ref w1Text) = .next t ∧ t.err = false) ∧
    (∃ t, exec .build (freqLoaded Config.ref w1Freq) = .next t ∧ t.err = false) ∧
    (∃ t, exec .gencodes abBuilt = .next t ∧ t.err = false) ∧
    (Instr.reservedOp 8).illegal = true ∧ (∃ t, exec (.reservedOp 8) State.reset = .next t) :=
  ⟨⟨_, rfl⟩, ⟨_, rfl⟩, exists_next (by decide +kernel), exists_next (by decide +kernel),
    exists_next (by decide +kernel), rfl, ⟨_, rfl⟩⟩

/-- The stream commands without error, with a byte of OBUF behind the result. -/
theorem witness_CommandsChangeOnlyTheirResults_stream :
    (∃ t, exec .serialize cabState = .next t ∧ (t.err, t.outLen) = (false, 14)) ∧
    (∃ t, exec .encode (loaded Config.ref w1Text) = .next t ∧ (t.err, t.outLen) = (false, 15)) ∧
    (∃ t, exec .decode (loaded Config.ref w1Stream) = .next t ∧ (t.err, t.outLen) = (false, 6)) ∧
    cabState.cfg.wf ∧ cabState.err = false ∧ 4 * 15 ≤ 60 :=
  ⟨exists_next (by decide +kernel), exists_next (by decide +kernel), exists_next (by decide +kernel), by decide, rfl,
    by decide⟩

/-- A completion without and one with an error. -/
theorem witness_CompletionSetsTheFlags :
    (∃ t, exec .nop State.reset = .next t) ∧ (∃ t, exec (.reservedOp 8) State.reset = .next t) :=
  ⟨⟨_, rfl⟩, ⟨_, rfl⟩⟩

/-- C3, B4, G6, S10, W3, D5. -/
theorem witness_ErrorEffectsOfEachCommand :
    State.reset.err = false ∧ (loaded Config.ref [0xD800]).err = false ∧
    (∃ t, exec .count (loaded Config.ref [0xD800]) = .next t ∧ t.err = true) ∧
    (∃ t, exec .build State.reset = .next t ∧ t.err = true) ∧
    (∃ t, exec .gencodes State.reset = .next t ∧ t.err = true) ∧
    (∃ t, exec .serialize State.reset = .next t ∧ t.err = true) ∧
    (∃ t, exec .encode State.reset = .next t ∧ t.err = true) ∧
    (∃ t, exec .decode State.reset = .next t ∧ t.err = true) :=
  ⟨rfl, rfl, exists_next (by decide +kernel), exists_next (by decide +kernel), exists_next (by decide +kernel),
    exists_next (by decide +kernel), exists_next (by decide +kernel), exists_next (by decide +kernel)⟩

theorem witness_CommandsRaiseOnlyTheirCodes :
    State.reset.cfg.wf ∧ State.reset.err = false ∧
    (∃ t, exec .count (loaded Config.ref [0xD800]) = .next t ∧ (t.err, t.errCode) = (true, 3)) ∧
    (∃ t, exec .build State.reset = .next t ∧ (t.err, t.errCode) = (true, 1)) ∧
    (∃ t, exec .gencodes State.reset = .next t ∧ (t.err, t.errCode) = (true, 6)) ∧
    (∃ t, exec .serialize State.reset = .next t ∧ (t.err, t.errCode) = (true, 6)) ∧
    (∃ t, exec .encode State.reset = .next t ∧ (t.err, t.errCode) = (true, 1)) ∧
    (∃ t, exec .decode State.reset = .next t ∧ (t.err, t.errCode) = (true, 2)) :=
  ⟨by decide, rfl, exists_next (by decide +kernel), exists_next (by decide +kernel), exists_next (by decide +kernel),
    exists_next (by decide +kernel), exists_next (by decide +kernel), exists_next (by decide +kernel)⟩

theorem witness_ValidityFlagsFollowTheirObjects :
    (∃ t, exec .build (freqLoaded Config.ref w1Freq) = .next t ∧ t.treeValid = true) ∧
    (∃ t, exec .gencodes abBuilt = .next t ∧ t.codesValid = true) ∧
    (∃ t, exec .clear abBuilt = .next t ∧ t.treeValid = false) :=
  ⟨exists_next (by decide +kernel), exists_next (by decide +kernel), exists_next (by decide +kernel)⟩

/-! #### Invariants and completion -/

/-- The engine's step of COUNT over W1, and a host step. -/
theorem witness_StepKeepsMemoryCanonical :
    (∀ w : Win, ((loaded Config.ref w1Text).win w).wf) ∧
    (∃ t, step { loaded Config.ref w1Text with lastCmd := 2 } = .next t ∧ t.freqN = 3) ∧
    (∃ t, step { loaded Config.ref w1Text with busy := false, pending := [.write 0x01000004 0] } = .next t ∧
      t.rsp = some 0) :=
  ⟨fun w => by cases w <;> decide +kernel, exists_next (by decide +kernel), exists_next (by decide +kernel)⟩

theorem witness_StepKeepsSound :
    (loaded Config.ref w1Text).Sound ∧ abBuilt.Sound ∧ (abState Config.small [0x61, 0x62]).Sound ∧
    (∃ t, step { abState Config.small [0x61, 0x62] with lastCmd := 5 } = .next t ∧ t.done = true) :=
  ⟨sound_loaded, sound_abBuilt, sound_abState, exists_next (by decide +kernel)⟩

theorem witness_SoundStatesCompleteEveryCommand : (abState Config.small [0x61, 0x62]).Sound := sound_abState

/-- A running command with two transactions before its completion. -/
theorem witness_EveryAcceptedCommandCompletes :
    ({ loaded Config.ref w1Text with pending := [.read 0x28, .write 0x24 0], busyTurns := 2 } : State).Sound ∧
    (loaded Config.ref w1Text).busy = true ∧
    (∀ e ∈ [HostEvent.read 0x28, .write 0x24 0], e.plain = true) :=
  ⟨sound_of_no_tree (by decide) (fun w => by cases w <;> decide +kernel) rfl rfl rfl rfl rfl, rfl, by decide⟩

/-- An Internal node that is its own child. -/
def loopState : State :=
  withCodes [] (withTree [.internal 0 0 0] 0 (loaded Config.small [0x61]))

theorem witness_NodeMemoryWithoutTreeStops :
    loopState.treeValid = true ∧ loopState.tree = none ∧ loopState.codesValid = true ∧ loopState.inLen ≠ 0 ∧
    loopState.inLen.toNat ≤ loopState.cfg.inCap ∧ exec .gencodes loopState = .fault .nodeMemoryNotATree := by
  have stuck : loopState.tree = none := by decide +kernel
  have stuck' : (clearCodes loopState).tree = none := stuck
  refine ⟨rfl, stuck, rfl, by decide, by decide, ?_⟩
  have valid : loopState.treeValid = true := rfl
  show finish (gencodesFrom (clearCodes loopState)) = _
  simp [gencodesFrom, valid, stuck', finish]

end Sys2Proof.Tests
end

section
/-! Which agent moves, and how a host transaction is answered (00_scope.md R14, R15; 40_command_lifecycle.md R206). -/

namespace Sys2Proof.Machine

/-! ### Which agent moves -/

theorem engineMoves_iff (s : State) :
    s.engineMoves = true ↔ s.busy = true ∧ (s.pending = [] ∨ s.busyTurns = 0) := by
  simp [State.engineMoves]

theorem engineMoves_eq_false_iff (s : State) :
    s.engineMoves = false ↔ s.busy = false ∨ (s.pending ≠ [] ∧ s.busyTurns ≠ 0) := by
  rw [← Bool.not_eq_true, engineMoves_iff, not_and_or, not_or, Bool.not_eq_true]

theorem step_eq_hostTurn {s : State} (h : s.engineMoves = false) : step s = hostTurn s := by
  rcases step_cases s with ⟨engine, -⟩ | ⟨-, host⟩
  · rw [h] at engine; cases engine
  · exact host

theorem hostTurn_of_pending_nil {s : State} (h : s.pending = []) : hostTurn s = .next s := by
  simp [hostTurn, h]

theorem hostTurn_of_pending_cons {s : State} {e : HostEvent} {q : List HostEvent} (h : s.pending = e :: q) :
    hostTurn s = hostEvent e { s with pending := q, busyTurns := s.busyTurns - 1 } := by
  simp [hostTurn, h]

/-- Settles O7: in both clauses the engine does not move, so the step is the host's turn. -/
theorem otherwiseTheHostMoves : Obligations.OtherwiseTheHostMoves := by
  refine ⟨fun s e q pending turns => ?_, fun s noEvent idle => ?_⟩
  · have hostMoves : s.engineMoves = false :=
      (engineMoves_eq_false_iff s).mpr (turns.imp_right fun left => ⟨by simp [pending], left⟩)
    rw [step_eq_hostTurn hostMoves, hostTurn_of_pending_cons pending]
  · have hostMoves : s.engineMoves = false := (engineMoves_eq_false_iff s).mpr (.inl idle)
    rw [step_eq_hostTurn hostMoves, hostTurn_of_pending_nil noEvent]

/-! ### How a transaction is answered -/

theorem wordAligned_iff (a : Word) : wordAligned a = true ↔ a.toNat % 4 = 0 := by
  simp [wordAligned]

theorem hostEvent_read_of_aligned {a : Word} (h : wordAligned a = true) (s : State) :
    hostEvent (.read a) s = .next { (hostRead a s).2 with rsp := some (hostRead a s).1 } := by
  simp [hostEvent, h]

theorem hostEvent_write_of_aligned {a : Word} (h : wordAligned a = true) (v : Word) (s : State) :
    hostEvent (.write a v) s = .next { hostWrite a v s with rsp := some 0 } := by
  simp [hostEvent, h]

/-- Settles O17: an aligned address is a form the bus carries, and the event of either kind is answered. -/
theorem everyTransactionIsAnswered : Obligations.EveryTransactionIsAnswered := by
  intro s a v h
  have aligned : wordAligned a = true := (wordAligned_iff a).mpr h
  exact ⟨hostEvent_read_of_aligned aligned s, hostEvent_write_of_aligned aligned v s⟩

end Sys2Proof.Machine
end

section
/-! The address map and the host's accesses while idle (10_state.md R33 to R61; 20_memory.md R104 to R109). -/

namespace Sys2Proof.Machine

/-! ### Where the windows lie (R33, R109) -/

theorem offset_lt_base (r : Reg) (w : Win) : r.offset < w.base :=
  calc r.offset ≤ 0x60 := by cases r <;> decide
    _ < w.base := by cases w <;> decide

theorem base_mod_four (w : Win) : w.base % 4 = 0 := by cases w <;> rfl

theorem size_mod_four (c : Config) (w : Win) : w.size c % 4 = 0 := by
  cases w <;> simp only [Win.size] <;> omega

/-- The gap from one window's base to the next is at least the greatest size (R8, R10). -/
theorem size_le {c : Config} (h : c.wf) (w : Win) : w.size c ≤ 0x01000000 := by
  obtain ⟨⟨-, nSym⟩, ⟨-, inCap⟩, ⟨-, outCap⟩, -⟩ := h
  cases w <;> simp only [Win.size, Config.nodeCap] <;> omega

/-- Two windows' bases are at least that gap apart. -/
theorem base_apart {v w : Win} (h : v ≠ w) : v.base + 0x01000000 ≤ w.base ∨ w.base + 0x01000000 ≤ v.base := by
  cases v <;> cases w <;> simp [Win.base] at h ⊢

/-- No register lies where a window does. -/
theorem find?_allRegs_of_base_le {w : Win} {o : Nat} (h : w.base ≤ o) :
    allRegs.find? (fun r => r.offset = o) = none := by
  refine List.find?_eq_none.mpr fun r _ => ?_
  have lt := offset_lt_base r w
  simp only [decide_eq_true_eq]
  omega

/-- The offset `o` within a window's size names the window's byte `o`. -/
theorem locate_base_add {c : Config} (hc : c.wf) {w : Win} {o : Nat} (ho : o < w.size c) :
    locate c (w.base + o) = .window w o := by
  have found : allWins.find? (fun v => v.base ≤ w.base + o ∧ w.base + o < v.base + v.size c) = some w := by
    have mem : w ∈ allWins := by cases w <;> decide
    cases first : allWins.find? (fun v => v.base ≤ w.base + o ∧ w.base + o < v.base + v.size c) with
    | none =>
      have miss := List.find?_eq_none.mp first w mem
      simp only [decide_eq_true_eq] at miss
      omega
    | some v =>
      have hit := List.find?_some first
      simp only [decide_eq_true_eq] at hit
      have sizes := size_le hc v
      have sizew := size_le hc w
      by_contra other
      have apart := base_apart (v := v) (w := w) fun same => other (same ▸ rfl)
      omega
  rw [locate, find?_allRegs_of_base_le (Nat.le_add_right w.base o)]
  simp only [found, Nat.add_sub_cancel_left]

/-- What an offset in a window says. -/
theorem locate_eq_window {c : Config} {o b : Nat} {w : Win} (h : locate c o = .window w b) :
    w.base ≤ o ∧ o < w.base + w.size c ∧ b = o - w.base := by
  unfold locate at h
  split at h
  case h_1 => cases h
  case h_2 =>
    split at h
    case h_1 v found =>
      cases h
      have bounds := List.find?_some found
      simp only [decide_eq_true_eq] at bounds
      exact ⟨bounds.1, bounds.2, rfl⟩
    case h_2 => cases h

/-- The bus address of byte `o` of a window. -/
theorem locate_windowAddr {s : State} (hc : s.cfg.wf) {w : Win} {o : Nat} (ho : o < w.size s.cfg) :
    s.locate (s.cfg.base + BitVec.ofNat 32 (w.base + o)) = .window w o := by
  have size := size_le hc w
  have base : w.base ≤ 0x05000000 := by cases w <;> decide
  rw [State.locate, BitVec.add_comm, BitVec.add_sub_cancel, BitVec.toNat_ofNat, Nat.mod_eq_of_lt (by omega),
    locate_base_add hc ho]

/-- A word-aligned address in a window names a whole word of it. -/
theorem locate_window_aligned {s : State} {a : Word} {w : Win} {o : Nat} (hc : s.cfg.wf) (aligned : a.toNat % 4 = 0)
    (h : s.locate a = .window w o) : o + 4 ≤ w.size s.cfg := by
  obtain ⟨-, -, -, -, base⟩ := hc
  obtain ⟨low, high, rfl⟩ := locate_eq_window h
  have sub := BitVec.toNat_sub a s.cfg.base
  have wordBase := base_mod_four w
  have wordSize := size_mod_four s.cfg w
  omega

end Sys2Proof.Machine
end

section
/-! What a host reads and writes (10_state.md R31 to R61, R90; 20_memory.md R104, R105). -/

namespace Sys2Proof.Machine

/-- Settles O12: each offset is a register's own or lies within its window's size. -/
theorem addressMapPlacesRegistersAndWindows : Obligations.AddressMapPlacesRegistersAndWindows := by
  intro c hc
  refine ⟨?_, fun i hi => ?_, fun i hi => ?_, fun i hi w hw => ?_, fun i hi w hw => ?_, fun i hi w hw => ?_⟩
  · exact ⟨locate_offset c .id, locate_offset c .version, locate_offset c .cfgNsym, locate_offset c .cfgIncap,
      locate_offset c .cfgOutcap, locate_offset c .cfgLmax, locate_offset c .ctrl, locate_offset c .cmd,
      locate_offset c .status, locate_offset c .errCode, locate_offset c .errArg0, locate_offset c .errArg1,
      locate_offset c .errArg2, locate_offset c .inLen, locate_offset c .outLen, locate_offset c .freqN,
      locate_offset c .nodeN, locate_offset c .root, locate_offset c .codeN, locate_offset c .treeBits,
      locate_offset c .payloadBits, locate_offset c .stopPos⟩
  · exact locate_base_add hc (w := .ibuf) (by simp only [Win.size]; omega)
  · exact locate_base_add hc (w := .obuf) (by simp only [Win.size]; omega)
  · rw [Nat.add_assoc]; exact locate_base_add hc (w := .freq) (by simp only [Win.size]; omega)
  · rw [Nat.add_assoc]; exact locate_base_add hc (w := .node) (by simp only [Win.size]; omega)
  · rw [Nat.add_assoc]; exact locate_base_add hc (w := .code) (by simp only [Win.size]; omega)

/-! ### Reads -/

/-- While idle every read is answered with what its address names (R105, R211). -/
theorem hostRead_of_idle {s : State} (idle : s.busy = false) (a : Word) :
    hostRead a s = (s.readLoc (s.locate a), s) := by
  obtain ⟨busy, -, -⟩ | ⟨-, read⟩ := hostRead_cases a s
  · rw [idle] at busy; cases busy
  · exact read

/-- A read of the word at byte `o` of a window, while idle; `k` is its offset, however it is written. -/
theorem hostRead_window {s : State} (hc : s.cfg.wf) (idle : s.busy = false) (w : Win) (o : Nat) {k : Nat}
    (ho : o < w.size s.cfg) (hk : k = w.base + o) :
    hostRead (s.cfg.base + BitVec.ofNat 32 k) s = ((s.win w).readWord o, s) := by
  rw [hk, hostRead_of_idle idle, locate_windowAddr hc ho]; rfl

/-- Settles O13: a register's address reads the register, a window's the word at its offset. -/
theorem hostReadsGiveTheNamedState : Obligations.HostReadsGiveTheNamedState := by
  refine ⟨fun s => ?_, fun s idle => ?_, fun s i hc idle => ?_⟩
  · have read := fun (r : Reg) (allowed : (Loc.reg r).readAllowed = true) => hostRead_regAddr s r (.inr allowed)
    exact ⟨read .id rfl, read .version rfl, read .cfgNsym rfl, read .cfgIncap rfl, read .cfgOutcap rfl,
      read .cfgLmax rfl, read .ctrl rfl, read .cmd rfl, read .status rfl⟩
  · have read := fun (r : Reg) => hostRead_regAddr s r (.inl idle)
    exact ⟨read .errCode, read .errArg0, read .errArg1, read .errArg2, read .inLen, read .outLen, read .freqN,
      read .nodeN, read .root, read .codeN, read .treeBits, read .payloadBits, read .stopPos⟩
  · have read := @hostRead_window s hc idle
    refine ⟨fun hi => ?_, fun hi => ?_, fun hi => ?_, fun hi => ?_, fun hi => ?_⟩
    · exact read .ibuf (4 * i) (by simp only [Win.size]; omega) rfl
    · exact read .obuf (4 * i) (by simp only [Win.size]; omega) rfl
    · have size : 8 * i + 4 < Win.freq.size s.cfg := by simp only [Win.size]; omega
      exact ⟨read .freq (8 * i) (by omega) rfl, read .freq (8 * i + 4) size (by simp only [Win.base]; omega)⟩
    · have size : 32 * i + 32 ≤ Win.node.size s.cfg := by simp only [Win.size]; omega
      have word := fun (j : Nat) (hj : j < 32) => read .node (32 * i + j) (k := 0x04000000 + j + 32 * i) (by omega)
        (by simp only [Win.base]; omega)
      refine ⟨?_, word 0x4 (by decide), word 0x8 (by decide), ?_, ?_, fun w hw => ?_⟩
      · rw [word 0 (by decide)]; rfl
      · rw [word 0x10 (by decide), nodeWeight, BitVec.extractLsb'_append_eq_right]; rfl
      · rw [word 0x14 (by decide), nodeWeight, BitVec.extractLsb'_append_eq_left]; rfl
      · exact read .node (32 * i + 4 * w) (by omega) (by simp only [Win.base]; omega)
    · have size : 16 * i + 16 ≤ Win.code.size s.cfg := by simp only [Win.size]; omega
      have word := fun (j : Nat) (hj : j < 16) => read .code (16 * i + j) (k := 0x05000000 + j + 16 * i) (by omega)
        (by simp only [Win.base]; omega)
      refine ⟨word 0 (by decide), word 0x4 (by decide), ?_, ?_⟩
      · rw [word 0x8 (by decide), codeEntry, BitVec.extractLsb'_append_eq_right]; rfl
      · rw [word 0xC (by decide), codeEntry, BitVec.extractLsb'_append_eq_left]; rfl

/-! ### STATUS (R37 to R39) -/

/-- A flag placed at bit `i` of STATUS. -/
theorem getLsbD_flag (b : Bool) {i : Nat} (hi : i < 32) (j : Nat) :
    (if b then 1#32 <<< i else 0 : Word).getLsbD j = (b && decide (j = i)) := by
  cases b
  · simp
  · by_cases same : j = i
    · subst same; simp [hi]
    · simp [same]; omega

theorem getLsbD_status (s : State) (j : Nat) :
    s.status.getLsbD j =
      (s.busy && decide (j = 0) || s.done && !s.busy && decide (j = 1) || s.err && !s.busy && decide (j = 2) ||
        s.haz && decide (j = 3) || s.treeValid && !s.busy && decide (j = 4) ||
        s.codesValid && !s.busy && decide (j = 5)) := by
  simp only [State.status, BitVec.getLsbD_or]
  rw [getLsbD_flag, getLsbD_flag, getLsbD_flag, getLsbD_flag, getLsbD_flag, getLsbD_flag] <;> decide

theorem status_of_busy {s : State} (busy : s.busy = true) : s.status = if s.haz then 0x9 else 0x1 := by
  cases haz : s.haz <;> simp [State.status, busy, haz]

/-- Settles O18, by the bits of STATUS. -/
theorem statusReadsMaskedWhileBusy : Obligations.StatusReadsMaskedWhileBusy := by
  intro s
  refine ⟨hostRead_regAddr s .status (.inr rfl), status_of_busy, fun idle => ?_, fun i hi => ?_⟩
  · simp only [getLsbD_status, idle]; simp
  · have apart : i ≠ 0 ∧ i ≠ 1 ∧ i ≠ 2 ∧ i ≠ 3 ∧ i ≠ 4 ∧ i ≠ 5 := by omega
    simp [getLsbD_status, apart]

/-! ### Writes -/

/-- Writing a register does what its access type says, while idle or where R210 allows it. -/
theorem hostWrite_regAddr (s : State) (r : Reg) (v : Word) (h : s.busy = false ∨ (Loc.reg r).writeAllowed = true) :
    hostWrite (regAddr s.cfg.base r) v s = writeReg r v s := by
  obtain ⟨busy, denied, -⟩ | ⟨-, written⟩ := hostWrite_cases (regAddr s.cfg.base r) v s
  · rw [locate_regAddr] at denied
    rcases h with idle | allowed
    · rw [idle] at busy; cases busy
    · rw [allowed] at denied; cases denied
  · rw [written, locate_regAddr]; rfl

/-- W1C on one flag (R38). -/
theorem and_not_eq_ite (flag bit : Bool) : (flag && !bit) = if bit then false else flag := by
  cases bit <;> simp

/-- Settles O19: STATUS is busy-allowed, and its write is W1C. -/
theorem statusWriteClearsOnes : Obligations.StatusWriteClearsOnes := by
  intro s v
  rw [hostWrite_regAddr s .status v (.inr rfl), writeReg, ackStatus]
  simp only [and_not_eq_ite]

theorem ctrl_writeCtrl (v : Word) (s : State) : (writeCtrl v s).ctrl = v &&& 1 := by
  have low : v &&& 1 = (BitVec.ofBool (v.getLsbD 0)).setWidth 32 := BitVec.and_one_eq_setWidth_ofBool_getLsbD
  rw [State.ctrl, writeCtrl_irqEn, low]
  cases v.getLsbD 0 <;> rfl

/-- Settles O22: while idle every register takes its write, and a read gives it back. -/
theorem writtenRegistersReadBack : Obligations.WrittenRegistersReadBack := by
  intro s v idle
  refine ⟨hostWrite_regAddr s .inLen v (.inl idle), hostRead_regAddr { s with inLen := v } .inLen (.inl idle),
    hostWrite_regAddr s .freqN v (.inl idle), hostRead_regAddr { s with freqN := v } .freqN (.inl idle),
    hostWrite_regAddr s .ctrl v (.inr rfl), ?_⟩
  have read : hostRead (regAddr s.cfg.base .ctrl) (writeCtrl v s) = ((writeCtrl v s).ctrl, writeCtrl v s) :=
    hostRead_regAddr (writeCtrl v s) .ctrl (.inr rfl)
  rw [hostWrite_regAddr s .ctrl v (.inr rfl), writeReg, read, ctrl_writeCtrl]

/-- While idle every write goes where its address leads (R211). -/
theorem hostWrite_of_idle {s : State} (idle : s.busy = false) (a v : Word) :
    hostWrite a v s = writeLoc (s.locate a) v s := by
  obtain ⟨busy, -, -⟩ | ⟨-, written⟩ := hostWrite_cases a v s
  · rw [idle] at busy; cases busy
  · exact written

/-- A write to a word of a writable window, while idle. -/
theorem hostWrite_window {s : State} {a : Word} {w : Win} {o : Nat} (idle : s.busy = false)
    (place : s.locate a = .window w o) (writable : w.writable = true) (v : Word) :
    hostWrite a v s = s.setWin w ((s.win w).writeWord o v) := by
  rw [hostWrite_of_idle idle, place, writeLoc, if_pos writable]

theorem locate_setWin (s : State) (w : Win) (m : Memory) (a : Word) : (s.setWin w m).locate a = s.locate a := by
  rw [State.locate, State.locate, setWin_cfg]

/-- Settles O21: the write is one word of one window, whose place stays where it was. -/
theorem writtenWindowWordsReadBack : Obligations.WrittenWindowWordsReadBack := by
  intro s a v w o idle place hw
  have writable : w.writable = true := by
    rcases List.mem_pair.mp hw with rfl | rfl <;> rfl
  rw [hostWrite_window idle place writable v]
  refine ⟨?_, ?_, fun w' b outside => ?_⟩
  · rw [hostRead_of_idle ((setWin_busy ..).trans idle), locate_setWin, place, State.readLoc, win_setWin, if_pos rfl,
      readWord_writeWord_same]
  · rcases List.mem_pair.mp hw with rfl | rfl <;> rfl
  · rw [win_setWin]
    split
    case isFalse => rfl
    case isTrue same =>
      subst same
      rw [readByte_writeWord, if_neg]
      rcases outside with other | low | high
      · exact absurd rfl other
      · omega
      · omega

/-- Settles O23, register by register. -/
theorem resetGivesTheResetValues : Obligations.ResetGivesTheResetValues := by
  intro s
  have status : (resetStep s).status = 0 :=
    BitVec.eq_of_getLsbD_eq fun i _ => (getLsbD_status _ i).trans BitVec.getLsbD_zero.symm
  exact ⟨rfl, rfl, rfl, rfl, rfl, rfl, rfl, rfl, rfl, rfl, status, rfl, rfl, rfl, rfl, rfl, rfl, rfl, rfl, rfl, rfl, rfl,
    rfl, rfl, rfl, rfl⟩

end Sys2Proof.Machine
end

section
/-! The windows of a sound state: contents in canonical form within the mapped bytes (10_state.md R33, R49). -/

namespace Sys2Proof.Machine

/-! ### Contents that fit a window of `n` bytes -/

/-- Canonical contents whose cells lie within the first `n` bytes. -/
def Memory.Fits (m : Memory) (n : Nat) : Prop := m.wf ∧ ∀ c ∈ m.cells, c.1 < n

theorem memoryOk_iff (s : State) : s.MemoryOk ↔ ∀ w : Win, (s.win w).Fits (w.size s.cfg) := Iff.rfl

theorem fits_empty (f : Fill) (n : Nat) : (⟨f, []⟩ : Memory).Fits n := ⟨wf_empty f, by simp⟩

theorem Memory.Fits.writeWord {m : Memory} {n a : Nat} (h : m.Fits n) (ha : a + 4 ≤ n) (w : Word) :
    (m.writeWord a w).Fits n := by
  refine ⟨wf_writeWord h.1 a w, fun c hc => ?_⟩
  rcases mem_writeWord hc with old | ⟨-, new⟩
  · exact h.2 c old
  · omega

theorem Memory.Fits.writeWords {m : Memory} {n a : Nat} {ws : List Word} (h : m.Fits n)
    (hl : a + 4 * ws.length ≤ n) : (m.writeWords a ws).Fits n := by
  refine ⟨wf_writeWords h.1 a ws, fun c hc => ?_⟩
  rcases mem_writeWords hc with old | ⟨-, new⟩
  · exact h.2 c old
  · omega

theorem fits_ofWords {ws : List Word} {n : Nat} (h : 4 * ws.length ≤ n) : (Memory.ofWords ws).Fits n :=
  (fits_empty .zero n).writeWords (by omega)

/-- A table of `l` with `k` words an entry fits where its entries do. -/
theorem fits_table {α : Type} (f : α → List Word) (k : Nat) (hf : ∀ a, (f a).length = k) {l : List α} {n : Nat}
    (h : 4 * k * l.length ≤ n) : (Memory.ofWords (l.flatMap f)).Fits n :=
  fits_ofWords (by rw [length_flatMap_words f k hf, ← Nat.mul_assoc]; exact h)

theorem State.MemoryOk.setWin {s : State} (h : s.MemoryOk) {w : Win} {m : Memory} (hm : m.Fits (w.size s.cfg)) :
    (s.setWin w m).MemoryOk := by
  intro v
  rw [win_setWin, setWin_cfg]
  split
  case isTrue same => exact same ▸ hm
  case isFalse => exact h v

theorem State.MemoryOk.scramble {s : State} (h : s.MemoryOk) (w : Win) : (scramble w s).MemoryOk := by
  intro v
  rw [win_scramble, scramble_cfg]
  split
  · exact fits_empty _ _
  · exact h v

end Sys2Proof.Machine
end

section
/-! How an update keeps a state sound (10_state.md R49). -/

namespace Sys2Proof.Machine

/-- What R49 speaks of besides the bounds of the windows: the parameters, the validity flags with the registers that follow
them, the node memory and the code table. -/
def State.objects (s : State) : Config × (Bool × Word × Word × Memory) × (Bool × Word × Memory) :=
  (s.cfg, (s.treeValid, s.nodeN, s.root, s.node), (s.codesValid, s.codeN, s.code))

theorem State.Sound.cfg_wf {s : State} (h : s.Sound) : s.cfg.wf := h.1

theorem State.Sound.memoryOk {s : State} (h : s.Sound) : s.MemoryOk := h.2.1

theorem State.Sound.flagsOk {s : State} (h : s.Sound) : s.FlagsOk := h.2.2.1

theorem State.Sound.treeOk {s : State} (h : s.Sound) : s.treeValid = true → s.TreeOk := h.2.2.2.1

theorem State.Sound.codesOk {s : State} (h : s.Sound) : s.codesValid = true → s.CodesOk := h.2.2.2.2

/-- R49 speaks of nothing but the objects and the windows. -/
theorem State.Sound.of_objects_eq {s t : State} (h : s.Sound) (ho : t.objects = s.objects) (hm : t.MemoryOk) :
    t.Sound := by
  simp only [State.objects, Prod.mk.injEq] at ho
  obtain ⟨cfg, ⟨treeValid, nodeN, root, node⟩, codesValid, codeN, code⟩ := ho
  obtain ⟨hc, -, hflags, htree, hcodes⟩ := h
  refine ⟨cfg ▸ hc, hm, ?_, ?_, ?_⟩
  · simpa only [State.FlagsOk, treeValid, nodeN, root, codesValid, codeN] using hflags
  · simpa only [State.TreeOk, State.tree, treeValid, nodeN, root, node, cfg] using htree
  · simpa only [State.CodesOk, State.tree, treeValid, codesValid, codeN, code, root, node, cfg] using hcodes

/-- A state in which the flags are down is sound when its windows are in order and the registers follow the flags. -/
theorem sound_of_flags_down {s : State} (hc : s.cfg.wf) (hm : s.MemoryOk) (tree : s.treeValid = false)
    (codes : s.codesValid = false) (hn : s.nodeN = 0) (hr : s.root = NIL) (hk : s.codeN = 0) : s.Sound :=
  ⟨hc, hm, ⟨fun _ => ⟨hn, hr⟩, fun _ => hk⟩, by simp [tree], by simp [codes]⟩

theorem codesValid_eq_false_of_treeValid {s : State} (h : s.Sound) (tree : s.treeValid = false) :
    s.codesValid = false := by
  rw [← Bool.not_eq_true]
  intro codes
  obtain ⟨treeUp, -⟩ := h.codesOk codes
  simp [tree] at treeUp

theorem State.Sound.tree_isSome {s : State} (h : s.Sound) (tree : s.treeValid = true) : s.tree ≠ none := by
  obtain ⟨-, -, -, isSome, -⟩ := h.treeOk tree
  exact fun none => by simp [none] at isSome

/-! ### The windows that hold no object -/

theorem scramble_obuf_sound {s : State} (h : s.Sound) : (scramble .obuf s).Sound :=
  h.of_objects_eq rfl (h.memoryOk.scramble .obuf)

theorem scramble_freq_sound {s : State} (h : s.Sound) : (scramble .freq s).Sound :=
  h.of_objects_eq rfl (h.memoryOk.scramble .freq)

/-! ### The node memory without a tree, the code table without codes -/

theorem scramble_node_sound {s : State} (h : s.Sound) (tree : s.treeValid = false) : (scramble .node s).Sound := by
  have codes := codesValid_eq_false_of_treeValid h tree
  obtain ⟨hc, hm, ⟨noTree, noCodes⟩, -, -⟩ := h
  exact sound_of_flags_down hc (hm.scramble .node) tree codes (noTree tree).1 (noTree tree).2 (noCodes codes)

theorem scramble_code_sound {s : State} (h : s.Sound) (codes : s.codesValid = false) :
    (scramble .code s).Sound := by
  obtain ⟨hc, hm, flags, htree, -⟩ := h
  exact ⟨hc, hm.scramble .code, flags, htree, fun up => absurd up (by simp [codes])⟩

/-! ### The registers -/

theorem complete_sound {s : State} (h : s.Sound) : (complete s).Sound := h.of_objects_eq rfl h.memoryOk

theorem errorComplete_sound {s : State} (h : s.Sound) (e : CmdError) : (errorComplete e s).Sound :=
  h.of_objects_eq rfl h.memoryOk

theorem clearOut_sound {s : State} (h : s.Sound) : (clearOut s).Sound := h.of_objects_eq rfl h.memoryOk

theorem clearTree_sound {s : State} (h : s.Sound) : (clearTree s).Sound :=
  sound_of_flags_down h.cfg_wf h.memoryOk rfl rfl rfl rfl rfl

theorem clearCodes_sound {s : State} (h : s.Sound) : (clearCodes s).Sound := by
  obtain ⟨hc, hm, ⟨noTree, -⟩, htree, -⟩ := h
  exact ⟨hc, hm, ⟨noTree, fun _ => rfl⟩, htree, by simp⟩

theorem clearBody_sound {s : State} (h : s.Sound) : (clearBody s).Sound :=
  sound_of_flags_down h.cfg_wf h.memoryOk rfl rfl rfl rfl rfl

theorem resetStep_sound {s : State} (hc : s.cfg.wf) : (resetStep s).Sound :=
  sound_of_flags_down hc (fun w => by cases w <;> exact fits_empty _ _) rfl rfl rfl rfl rfl

end Sys2Proof.Machine
end

section
/-! Trees in a list of nodes, and the tree a command finds in the node memory once the list is installed (10_state.md
R49, R64). -/

namespace Sys2Proof.Machine

/-- The nodes `ns` hold the tree `t` from index `i` on, reaching the indices `is` in preorder. -/
inductive HoldsTree (ns : List Node) : Nat → Tree → List Nat → Prop
  | leaf {i : Nat} {c : Word} {w : DWord} (here : ns[i]? = some (.leaf c w)) : HoldsTree ns i (.leaf c) [i]
  | internal {i : Nat} {a b : Word} {w : DWord} {l r : Tree} {is js : List Nat}
      (here : ns[i]? = some (.internal a b w)) (left : HoldsTree ns a.toNat l is)
      (right : HoldsTree ns b.toNat r js) : HoldsTree ns i (.node l r) (i :: (is ++ js))

theorem HoldsTree.mem_self {ns : List Node} {i : Nat} {t : Tree} {is : List Nat} (h : HoldsTree ns i t is) : i ∈ is := by
  cases h <;> exact List.mem_cons_self

/-- A tree depends only on the nodes it reaches. -/
theorem HoldsTree.congr {ns ms : List Node} {i : Nat} {t : Tree} {is : List Nat} (h : HoldsTree ns i t is)
    (same : ∀ j ∈ is, ms[j]? = ns[j]?) : HoldsTree ms i t is := by
  induction h with
  | leaf here => exact .leaf ((same _ List.mem_cons_self).trans here)
  | internal here left right ihl ihr =>
    refine .internal ((same _ List.mem_cons_self).trans here) (ihl fun j hj => same j ?_) (ihr fun j hj => same j ?_)
    · exact List.mem_cons_of_mem _ (List.mem_append_left _ hj)
    · exact List.mem_cons_of_mem _ (List.mem_append_right _ hj)

theorem HoldsTree.lt_length_of_mem {ns : List Node} {i : Nat} {t : Tree} {is : List Nat} (h : HoldsTree ns i t is) :
    ∀ j ∈ is, j < ns.length := by
  induction h with
  | leaf here => simpa using (List.getElem?_eq_some_iff.mp here).1
  | internal here left right ihl ihr =>
    intro j hj
    rcases List.mem_cons.mp hj with rfl | hj
    · exact (List.getElem?_eq_some_iff.mp here).1
    · exact (List.mem_append.mp hj).elim (ihl j) (ihr j)

theorem HoldsTree.append {ns : List Node} {i : Nat} {t : Tree} {is : List Nat} (h : HoldsTree ns i t is)
    (ms : List Node) : HoldsTree (ns ++ ms) i t is :=
  h.congr fun j hj => List.getElem?_append_left (h.lt_length_of_mem j hj)

/-- The nodes are all of one tree, from index `r` on. -/
def OneTree (ns : List Node) (r : Nat) : Prop := ∃ t is, HoldsTree ns r t is ∧ is.Perm (List.range ns.length)

/-! ### Reading the nodes back -/

/-- The node memory after a command has written the nodes `ns`. -/
def nodeMemory (ns : List Node) : Memory := Memory.ofWords (ns.flatMap Node.words)

theorem nodeWord_of_getElem? {ns : List Node} {i : Nat} {n : Node} (h : ns[i]? = some n) {j : Nat} (hj : j < 8) :
    (nodeMemory ns).readWord (32 * i + 4 * j) = n.words.getD j 0 := by
  rw [nodeMemory, nodeWord_ofWords ns i j hj]; simp [h]

theorem nodeKind_leaf {ns : List Node} {i : Nat} {c : Word} {w : DWord} (h : ns[i]? = some (.leaf c w)) :
    nodeKind (nodeMemory ns) i = 2 := by
  rw [nodeKind, ← Nat.add_zero (32 * i), nodeWord_of_getElem? h (j := 0) (by decide)]; rfl

theorem nodeKind_internal {ns : List Node} {i : Nat} {a b : Word} {w : DWord}
    (h : ns[i]? = some (.internal a b w)) : nodeKind (nodeMemory ns) i = 1 := by
  rw [nodeKind, ← Nat.add_zero (32 * i), nodeWord_of_getElem? h (j := 0) (by decide)]; rfl

theorem nodeA_leaf {ns : List Node} {i : Nat} {c : Word} {w : DWord} (h : ns[i]? = some (.leaf c w)) :
    nodeA (nodeMemory ns) i = c := nodeWord_of_getElem? h (j := 1) (by decide)

theorem nodeA_internal {ns : List Node} {i : Nat} {a b : Word} {w : DWord} (h : ns[i]? = some (.internal a b w)) :
    nodeA (nodeMemory ns) i = a := nodeWord_of_getElem? h (j := 1) (by decide)

theorem nodeB_internal {ns : List Node} {i : Nat} {a b : Word} {w : DWord} (h : ns[i]? = some (.internal a b w)) :
    nodeB (nodeMemory ns) i = b := nodeWord_of_getElem? h (j := 2) (by decide)

/-- Behind the nodes every word is 0 (R64, an EMPTY entry). -/
theorem nodeMemory_readWord_behind (ns : List Node) (o : Nat) :
    (nodeMemory ns).readWord (32 * ns.length + 4 * o) = 0 := by
  rw [show 32 * ns.length + 4 * o = 4 * (8 * ns.length + o) by omega, nodeMemory, readWord_ofWords]
  exact List.getD_eq_default _ _ (by rw [length_flatMap_words Node.words 8 Node.length_words]; omega)

/-! ### The walks over a node memory -/

theorem readTree_leaf {m : Memory} {i : Nat} (fuel : Nat) (h : nodeKind m i = 2) :
    readTree m (fuel + 1) i = some (.leaf (nodeA m i)) := by
  rw [readTree, if_pos h]

theorem readTree_internal {m : Memory} {fuel i : Nat} {l r : Tree} (h : nodeKind m i ≠ 2)
    (left : readTree m fuel (nodeA m i).toNat = some l) (right : readTree m fuel (nodeB m i).toNat = some r) :
    readTree m (fuel + 1) i = some (.node l r) := by
  rw [readTree, if_neg h, left, right]

/-- What a walk that ends has met at its first node. -/
theorem readTree_cases {m : Memory} {fuel i : Nat} {t : Tree} (h : readTree m fuel i = some t) :
    (∃ k, fuel = k + 1 ∧ nodeKind m i = 2 ∧ t = .leaf (nodeA m i)) ∨
    (∃ k l r, fuel = k + 1 ∧ nodeKind m i ≠ 2 ∧ readTree m k (nodeA m i).toNat = some l ∧
      readTree m k (nodeB m i).toNat = some r ∧ t = .node l r) := by
  cases fuel with
  | zero => simp [readTree] at h
  | succ k =>
    by_cases kind : nodeKind m i = 2
    · rw [readTree_leaf k kind] at h
      exact .inl ⟨k, rfl, kind, (Option.some.inj h).symm⟩
    · cases left : readTree m k (nodeA m i).toNat with
      | none => rw [readTree, if_neg kind, left] at h; cases h
      | some l =>
        cases right : readTree m k (nodeB m i).toNat with
        | none => rw [readTree, if_neg kind, left, right] at h; cases h
        | some r =>
          rw [readTree_internal kind left right] at h
          exact .inr ⟨k, l, r, rfl, kind, left, right, (Option.some.inj h).symm⟩

theorem reachedNodes_leaf {m : Memory} {i : Nat} (fuel : Nat) (h : nodeKind m i = 2) :
    reachedNodes m (fuel + 1) i = [i] := by
  rw [reachedNodes, if_pos h]

theorem reachedNodes_internal {m : Memory} {i : Nat} (fuel : Nat) (h : nodeKind m i ≠ 2) :
    reachedNodes m (fuel + 1) i =
      i :: (reachedNodes m fuel (nodeA m i).toNat ++ reachedNodes m fuel (nodeB m i).toNat) := by
  rw [reachedNodes, if_neg h]

/-- A tree of `n` leaves reaches `2n - 1` nodes. -/
theorem length_reachedNodes {m : Memory} {fuel i : Nat} {t : Tree} (h : readTree m fuel i = some t) :
    (reachedNodes m fuel i).length + 1 = 2 * t.leaves := by
  induction t generalizing fuel i with
  | leaf c =>
    obtain ⟨k, rfl, kind, -⟩ | ⟨k, l, r, -, -, -, -, node⟩ := readTree_cases h
    · simp [reachedNodes_leaf k kind, Tree.leaves]
    · cases node
  | node l r ihl ihr =>
    obtain ⟨k, -, -, leaf⟩ | ⟨k, l, r, rfl, kind, left, right, node⟩ := readTree_cases h
    · cases leaf
    · cases node
      have hl := ihl left
      have hr := ihr right
      simp only [reachedNodes_internal k kind, List.length_cons, List.length_append, Tree.leaves]
      omega

/-! ### The walks over installed nodes -/

/-- With at least as much fuel as nodes in the tree, the walk reads the tree. -/
theorem HoldsTree.readTree_eq {ns : List Node} {i : Nat} {t : Tree} {is : List Nat} (h : HoldsTree ns i t is)
    {fuel : Nat} (hf : is.length ≤ fuel) : readTree (nodeMemory ns) fuel i = some t := by
  induction h generalizing fuel with
  | leaf here =>
    obtain ⟨k, rfl⟩ : ∃ k, fuel = k + 1 := Nat.exists_eq_add_of_le' hf
    rw [readTree_leaf k (nodeKind_leaf here), nodeA_leaf here]
  | internal here left right ihl ihr =>
    simp only [List.length_cons, List.length_append] at hf
    obtain ⟨k, rfl⟩ := Nat.exists_eq_add_of_le' (Nat.le_trans (Nat.le_add_left 1 _) hf)
    have kind := nodeKind_internal here
    refine readTree_internal (by rw [kind]; decide) ?_ ?_
    · rw [nodeA_internal here]; exact ihl (by omega)
    · rw [nodeB_internal here]; exact ihr (by omega)

theorem HoldsTree.reachedNodes_eq {ns : List Node} {i : Nat} {t : Tree} {is : List Nat} (h : HoldsTree ns i t is)
    {fuel : Nat} (hf : is.length ≤ fuel) : reachedNodes (nodeMemory ns) fuel i = is := by
  induction h generalizing fuel with
  | leaf here =>
    obtain ⟨k, rfl⟩ : ∃ k, fuel = k + 1 := Nat.exists_eq_add_of_le' hf
    exact reachedNodes_leaf k (nodeKind_leaf here)
  | internal here left right ihl ihr =>
    simp only [List.length_cons, List.length_append] at hf
    obtain ⟨k, rfl⟩ := Nat.exists_eq_add_of_le' (Nat.le_trans (Nat.le_add_left 1 _) hf)
    have kind := nodeKind_internal here
    rw [reachedNodes_internal k (by rw [kind]; decide), nodeA_internal here, nodeB_internal here,
      ihl (by omega), ihr (by omega)]

theorem HoldsTree.nodeKind_eq {ns : List Node} {i : Nat} {t : Tree} {is : List Nat} (h : HoldsTree ns i t is) :
    ∀ j ∈ is, nodeKind (nodeMemory ns) j = 1 ∨ nodeKind (nodeMemory ns) j = 2 := by
  induction h with
  | leaf here => simpa using .inr (nodeKind_leaf here)
  | internal here left right ihl ihr =>
    intro j hj
    rcases List.mem_cons.mp hj with rfl | hj
    · exact .inl (nodeKind_internal here)
    · exact (List.mem_append.mp hj).elim (ihl j) (ihr j)

/-! ### Installing a tree -/

theorem nodeCap_lt {c : Config} (h : c.wf) : c.nodeCap < 2 ^ 19 := by
  obtain ⟨⟨-, nSym⟩, -⟩ := h
  unfold Config.nodeCap
  omega

/-- One tree, installed, is the tree R49 asks for. -/
theorem treeOk_installTree {s : State} {ns : List Node} {r : Nat} (hc : s.cfg.wf) (h : OneTree ns r)
    (fit : ns.length ≤ s.cfg.nodeCap) : (installTree ns r s).TreeOk := by
  obtain ⟨t, is, holds, all⟩ := h
  have cap := nodeCap_lt hc
  have inRange : r < ns.length := holds.lt_length_of_mem r holds.mem_self
  have length : (BitVec.ofNat 32 ns.length).toNat = ns.length := Nat.mod_eq_of_lt (by omega)
  have root : (BitVec.ofNat 32 r).toNat = r := Nat.mod_eq_of_lt (by omega)
  have fuel : is.length ≤ s.cfg.nodeCap := by simpa [all.length_eq] using fit
  unfold State.TreeOk State.tree
  simp only [installTree_node, installTree_nodeN, installTree_root, installTree_cfg, length, root]
  refine ⟨by omega, fit, inRange, ?_, ?_, fun i hi => ?_, fun o _ => nodeMemory_readWord_behind ns o⟩
  · exact Option.isSome_iff_exists.mpr ⟨t, holds.readTree_eq fuel⟩
  · exact (holds.reachedNodes_eq fuel) ▸ all
  · exact holds.nodeKind_eq i (all.mem_iff.mpr (List.mem_range.mpr hi))

theorem installTree_sound {s : State} {ns : List Node} {r : Nat} (hs : s.Sound) (codes : s.codesValid = false)
    (h : OneTree ns r) (fit : ns.length ≤ s.cfg.nodeCap) : (installTree ns r s).Sound := by
  have window : (nodeMemory ns).Fits (Win.node.size s.cfg) :=
    fits_table Node.words 8 Node.length_words (Nat.mul_le_mul_left 32 fit)
  obtain ⟨-, noCodes⟩ := hs.flagsOk
  exact ⟨hs.cfg_wf, hs.memoryOk.setWin (w := .node) window, ⟨by simp, noCodes⟩,
    fun _ => treeOk_installTree hs.cfg_wf h fit, by simp [codes]⟩

end Sys2Proof.Machine
end

section
/-! The nodes BUILD makes are one tree (42_tree_builder.md R262 to R265). -/

namespace Sys2Proof.Machine

/-- Every entry of the queue is the root of a tree in the nodes `ns`; `is` are the indices these trees reach, in turn. -/
inductive Forest (ns : List Node) : List PQEntry → List Nat → Prop
  | nil : Forest ns [] []
  | cons {x : PQEntry} {q : List PQEntry} {t : Tree} {is js : List Nat} (head : HoldsTree ns x.index t is)
      (tail : Forest ns q js) : Forest ns (x :: q) (is ++ js)

theorem Forest.append {ns : List Node} {q : List PQEntry} {is : List Nat} (h : Forest ns q is) (ms : List Node) :
    Forest (ns ++ ms) q is := by
  induction h with
  | nil => exact .nil
  | cons head tail ih => exact .cons (head.append ms) ih

/-- Wherever the key order puts a new tree, the same nodes are reached. -/
theorem Forest.pqInsert {ns : List Node} {x : PQEntry} {q : List PQEntry} {t : Tree} {is js : List Nat}
    (head : HoldsTree ns x.index t is) (h : Forest ns q js) :
    ∃ ks, Forest ns (pqInsert x q) ks ∧ ks.Perm (is ++ js) := by
  induction h with
  | nil => exact ⟨_, .cons head .nil, .refl _⟩
  | @cons y q u ys js first tail ih =>
    rw [Machine.pqInsert]
    split
    · exact ⟨_, .cons head (.cons first tail), .refl _⟩
    · obtain ⟨ks, forest, perm⟩ := ih
      refine ⟨_, .cons first forest, (perm.append_left ys).trans ?_⟩
      simpa only [List.append_assoc] using (List.perm_append_comm (l₁ := ys) (l₂ := is)).append_right js

theorem length_pqInsert (x : PQEntry) (q : List PQEntry) : (pqInsert x q).length = q.length + 1 := by
  induction q with
  | nil => rfl
  | cons y q ih =>
    rw [pqInsert]
    split
    · rfl
    · simp [ih]

/-! ### The leaves (R262) -/

theorem length_leafQueue (i : Nat) (es : List FreqEntry) : (leafQueue i es).length = es.length := by
  induction es generalizing i with
  | nil => rfl
  | cons e es ih => rw [leafQueue, length_pqInsert, ih, List.length_cons]

/-- The queue of the leaves from index `i` on, where the nodes from `i` on are these leaves. -/
theorem forest_leafQueue {ns : List Node} {i : Nat} {es : List FreqEntry} (h : ns.drop i = leafNodes es) :
    ∃ ks, Forest ns (leafQueue i es) ks ∧ ks.Perm (List.range' i es.length) := by
  induction es generalizing i with
  | nil => exact ⟨[], .nil, .refl _⟩
  | cons e es ih =>
    have here : ns[i]? = some (.leaf e.sym (e.count.setWidth 64)) := by
      rw [← List.head?_drop, h]; rfl
    have rest : ns.drop (i + 1) = leafNodes es := by
      rw [← List.tail_drop, h]; rfl
    obtain ⟨ks, forest, perm⟩ := ih rest
    obtain ⟨ls, forest', perm'⟩ := Forest.pqInsert (x := ⟨e.count.setWidth 64, i⟩) (.leaf here) forest
    refine ⟨ls, forest', perm'.trans ?_⟩
    rw [List.length_cons, List.range'_succ]
    exact perm.cons i

/-! ### The merge loop (R264) -/

/-- One merge: two entries leave the queue, one comes back. -/
theorem mergeLoop_succ (fuel : Nat) (x y : PQEntry) (q : List PQEntry) (next : Nat) :
    mergeLoop (fuel + 1) (x :: y :: q) next =
      (.internal (BitVec.ofNat 32 x.index) (BitVec.ofNat 32 y.index) (x.weight + y.weight) ::
          (mergeLoop fuel (pqInsert ⟨x.weight + y.weight, next⟩ q) (next + 1)).1,
        (mergeLoop fuel (pqInsert ⟨x.weight + y.weight, next⟩ q) (next + 1)).2) := rfl

theorem mergeLoop_single (fuel : Nat) (x : PQEntry) (next : Nat) : mergeLoop fuel [x] next = ([], x.index) := by
  cases fuel <;> rfl

theorem Forest.oneTree {ns : List Node} {x : PQEntry} {is : List Nat} (h : Forest ns [x] is)
    (all : is.Perm (List.range ns.length)) : OneTree ns x.index := by
  cases h with
  | cons head tail =>
    cases tail
    exact ⟨_, _, head, by simpa using all⟩

/-- One merge: the two trees taken from the queue become one, with the new node `n` as its root. -/
theorem Forest.merge {ns : List Node} {x y : PQEntry} {q : List PQEntry} {is : List Nat} {n : Node} {w : DWord}
    (small : ns.length ≤ 2 ^ 32) (h : Forest ns (x :: y :: q) is) (all : is.Perm (List.range ns.length))
    (hn : n = .internal (BitVec.ofNat 32 x.index) (BitVec.ofNat 32 y.index) w) :
    ∃ js, Forest (ns ++ [n]) (Machine.pqInsert ⟨w, ns.length⟩ q) js ∧ js.Perm (List.range (ns ++ [n]).length) := by
  have narrow : ∀ {z : PQEntry} {u : Tree} {ks : List Nat}, HoldsTree ns z.index u ks →
      (BitVec.ofNat 32 z.index).toNat = z.index := fun held =>
    Nat.mod_eq_of_lt (Nat.lt_of_lt_of_le (held.lt_length_of_mem _ held.mem_self) small)
  cases h with
  | @cons _ _ t is _ first others =>
    cases others with
    | @cons _ _ u js ks second tail =>
      have here : (ns ++ [n])[ns.length]? =
          some (.internal (BitVec.ofNat 32 x.index) (BitVec.ofNat 32 y.index) w) := by simp [hn]
      have merged : HoldsTree (ns ++ [n]) ns.length (.node t u) (ns.length :: (is ++ js)) :=
        .internal here (by rw [narrow first]; exact first.append [n]) (by rw [narrow second]; exact second.append [n])
      obtain ⟨ls, forest, perm⟩ := Forest.pqInsert (x := ⟨w, ns.length⟩) merged (tail.append [n])
      refine ⟨ls, forest, perm.trans ?_⟩
      rw [List.length_append, List.length_singleton, List.range_succ]
      refine .trans ?_ (List.perm_append_singleton _ _).symm
      simpa only [List.cons_append, List.append_assoc] using all.cons ns.length

/-- The nodes `ns` made so far are the trees of the queue; the loop makes one tree of them, with one node less than
there are trees. -/
theorem mergeLoop_oneTree {fuel : Nat} {q : List PQEntry} {ns : List Node} {is : List Nat} (nonempty : q ≠ [])
    (enough : q.length ≤ fuel + 1) (small : ns.length + q.length ≤ 2 ^ 32) (h : Forest ns q is)
    (all : is.Perm (List.range ns.length)) :
    (mergeLoop fuel q ns.length).1.length + 1 = q.length ∧
      OneTree (ns ++ (mergeLoop fuel q ns.length).1) (mergeLoop fuel q ns.length).2 := by
  induction fuel generalizing q ns is with
  | zero =>
    obtain ⟨x, rfl⟩ : ∃ x, q = [x] :=
      List.length_eq_one_iff.mp (Nat.le_antisymm enough (List.length_pos_iff.mpr nonempty))
    rw [mergeLoop_single, List.append_nil]
    exact ⟨rfl, h.oneTree all⟩
  | succ fuel ih =>
    match q with
    | [] => exact absurd rfl nonempty
    | [x] =>
      rw [mergeLoop_single, List.append_nil]
      exact ⟨rfl, h.oneTree all⟩
    | x :: y :: q =>
      simp only [List.length_cons] at enough small
      rw [mergeLoop_succ]
      generalize x.weight + y.weight = w
      generalize hn : Node.internal (BitVec.ofNat 32 x.index) (BitVec.ofNat 32 y.index) w = n
      obtain ⟨js, forest, perm⟩ := h.merge (by omega) all hn.symm
      have length := length_pqInsert ⟨w, ns.length⟩ q
      have more : (ns ++ [n]).length = ns.length + 1 := by simp
      have rest := ih (List.ne_nil_of_length_pos (by omega)) (by omega) (by omega) forest perm
      rw [more, List.append_assoc, List.singleton_append] at rest
      obtain ⟨count, tree⟩ := rest
      exact ⟨by rw [List.length_cons, List.length_cons, List.length_cons]; omega, tree⟩

/-! ### The result (R260, R265) -/

theorem length_leafNodes (es : List FreqEntry) : (leafNodes es).length = es.length := List.length_map _

theorem buildNodes_fst (es : List FreqEntry) :
    (buildNodes es).1 = leafNodes es ++ (mergeLoop es.length (leafQueue 0 es) es.length).1 := rfl

/-- BUILD makes `2n - 1` nodes, all of one tree. -/
theorem buildNodes_oneTree {es : List FreqEntry} (nonempty : es ≠ []) (small : es.length ≤ 2 ^ 31) :
    (buildNodes es).1.length + 1 = 2 * es.length ∧ OneTree (buildNodes es).1 (buildNodes es).2 := by
  obtain ⟨ks, forest, perm⟩ := forest_leafQueue (ns := leafNodes es) (i := 0) rfl
  have leaves := length_leafNodes es
  have queue := length_leafQueue 0 es
  have positive := List.length_pos_iff.mpr nonempty
  obtain ⟨count, tree⟩ := mergeLoop_oneTree (fuel := es.length) (List.ne_nil_of_length_pos (by omega)) (by omega)
    (by omega) forest (by rw [leaves, List.range_eq_range']; exact perm)
  rw [leaves] at count tree
  exact ⟨by rw [buildNodes_fst, List.length_append]; omega, tree⟩

end Sys2Proof.Machine
end

section
/-! The nodes Phase 1 of DECODE makes are one tree, numbered in preorder (45_decoder.md R353, R354, R362). -/

namespace Sys2Proof.Machine

/-! ### One node of the tree region -/

/-- The node that `readNode` has put at the end of the list, and whether it is a Leaf (R355, R356). -/
inductive NewNode : Bool → Node → Prop
  | internal : NewNode false (.internal NIL NIL 0)
  | leaf (c : Word) : NewNode true (.leaf c 0)

/-- All that reading a node can give: the list was not full, and has one node more. -/
theorem readNode_ok {nb : Nat} {bit : Nat → Bool} {cap : Nat} {c c' : DecCursor} {isLeaf : Bool}
    (h : readNode nb bit cap c = .ok (isLeaf, c')) :
    c.nodes.length ≠ cap ∧ ∃ n, NewNode isLeaf n ∧ c'.nodes = c.nodes ++ [n] := by
  unfold readNode at h
  split at h
  case h_1 => cases h
  case h_2 b pos1 _ =>
    split at h
    case isTrue => cases h
    case isFalse room =>
      split at h
      case isTrue => cases h; exact ⟨room, _, .internal, rfl⟩
      case isFalse =>
        split at h
        case h_1 => cases h
        case h_2 x pos2 _ => cases h; exact ⟨room, _, .leaf x, rfl⟩

theorem attach_left {nodes : List Node} {p : Nat} {b : Word} {w : DWord} (j : Nat)
    (h : nodes[p]? = some (.internal NIL b w)) :
    attach nodes p j = (nodes.set p (.internal (BitVec.ofNat 32 j) b w), false) := by
  simp [attach, h]

theorem attach_right {nodes : List Node} {p : Nat} {a b : Word} {w : DWord} (j : Nat)
    (h : nodes[p]? = some (.internal a b w)) (ha : a ≠ NIL) :
    attach nodes p j = (nodes.set p (.internal a (BitVec.ofNat 32 j) w), true) := by
  simp [attach, h, ha]

/-- The stack above `below` once the new node `j` is attached: an Internal node has slots of its own (R354). -/
def pushOpen (isLeaf : Bool) (j : Nat) (below : List Nat) : List Nat := if isLeaf then below else j :: below

/-- One round of Phase 1. -/
theorem fillSlots_succ {nb : Nat} {bit : Nat → Bool} {cap fuel p : Nat} {c c' : DecCursor} {stack : List Nat}
    (h : fillSlots nb bit cap (fuel + 1) c (p :: stack) = .ok c') :
    ∃ isLeaf c1, readNode nb bit cap c = .ok (isLeaf, c1) ∧
      fillSlots nb bit cap fuel ⟨c1.pos, (attach c1.nodes p c.nodes.length).1⟩
        (pushOpen isLeaf c.nodes.length (if (attach c1.nodes p c.nodes.length).2 then stack else p :: stack)) =
          .ok c' := by
  rw [fillSlots] at h
  split at h
  case h_1 => cases h
  case h_2 isLeaf c1 read => exact ⟨isLeaf, c1, read, h⟩

/-! ### The empty slots on the stack, and the subtrees that fill them -/

/-- The stack holds distinct Internal nodes. -/
def OpenStack (nodes : List Node) (stack : List Nat) : Prop :=
  stack.Nodup ∧ ∀ p ∈ stack, ∃ a b w, nodes[p]? = some (.internal a b w)

/-- In `new` the empty slots that the stack's nodes have in `old` are filled, in stack order and left before right, with
the subtrees that make up the nodes from index `j` on. -/
inductive Filled (old new : List Node) : List Nat → Nat → Prop
  | nil : Filled old new [] new.length
  | right {p j n : Nat} {a b b' : Word} {w w' : DWord} {r : Tree} {stack : List Nat}
      (before : old[p]? = some (.internal a b w)) (full : a ≠ NIL) (after : new[p]? = some (.internal a b' w'))
      (right : HoldsTree new b'.toNat r (List.range' j n)) (rest : Filled old new stack (j + n)) :
      Filled old new (p :: stack) j
  | both {p j m n : Nat} {b a' b' : Word} {w w' : DWord} {l r : Tree} {stack : List Nat}
      (before : old[p]? = some (.internal NIL b w)) (after : new[p]? = some (.internal a' b' w'))
      (left : HoldsTree new a'.toNat l (List.range' j m)) (right : HoldsTree new b'.toNat r (List.range' (j + m) n))
      (rest : Filled old new stack (j + m + n)) : Filled old new (p :: stack) j

theorem Filled.congr {old old' new : List Node} {stack : List Nat} {j : Nat} (h : Filled old new stack j)
    (same : ∀ p ∈ stack, old'[p]? = old[p]?) : Filled old' new stack j := by
  induction h with
  | nil => exact .nil
  | right before full after right rest ih =>
    exact .right ((same _ List.mem_cons_self).trans before) full after right
      (ih fun p hp => same p (List.mem_cons_of_mem _ hp))
  | both before after left right rest ih =>
    exact .both ((same _ List.mem_cons_self).trans before) after left right
      (ih fun p hp => same p (List.mem_cons_of_mem _ hp))

/-- `new` completes `old`: the slots on the stack are filled with the nodes behind `old`, and the other nodes are kept. -/
structure Completes (old new : List Node) (stack : List Nat) : Prop where
  filled : Filled old new stack old.length
  kept : ∀ i < old.length, i ∉ stack → new[i]? = old[i]?

/-- The subtree below the last node of `old`. -/
theorem Completes.subtree {old new : List Node} {below : List Nat} {j : Nat} {isLeaf : Bool} {n : Node}
    (h : Completes old new (pushOpen isLeaf j below)) (last : old.length = j + 1)
    (here : old[j]? = some n) (kind : NewNode isLeaf n) (hj : j ∉ below) :
    ∃ t k, HoldsTree new j t (List.range' j k) ∧ Filled old new below (j + k) ∧
      ∀ i < j, i ∉ below → new[i]? = old[i]? := by
  obtain ⟨filled, kept⟩ := h
  rw [last] at filled
  cases kind with
  | leaf c =>
    exact ⟨.leaf c, 1, .leaf ((kept j (by omega) hj).trans here), filled, fun i hi => kept i (by omega)⟩
  | internal =>
    have frame : ∀ i < j, i ∉ below → new[i]? = old[i]? := fun i hi out =>
      kept i (by omega) (List.not_mem_cons_of_ne_of_not_mem (by omega) out)
    cases filled with
    | right before full =>
      rw [here] at before
      cases before
      exact absurd rfl full
    | @both _ _ m n _ a' b' _ w' l r _ before after left right rest =>
      refine ⟨.node l r, m + n + 1, ?_, ?_, frame⟩
      · rw [List.range'_succ, ← List.range'_append_1]
        exact .internal after left right
      · rw [show j + (m + n + 1) = j + 1 + m + n by omega]
        exact rest

/-! ### One round -/

theorem ofNat_ne_NIL {n : Nat} (h : n < 2 ^ 32 - 1) : BitVec.ofNat 32 n ≠ NIL := by
  intro nil
  have value : n % 2 ^ 32 = 2 ^ 32 - 1 := congrArg BitVec.toNat nil
  omega

/-- The nodes after the new node `n` is put at the end and node `p` becomes `m`. -/
def attached (nodes : List Node) (n : Node) (p : Nat) (m : Node) : List Node := (nodes ++ [n]).set p m

@[simp] theorem length_attached (nodes : List Node) (n : Node) (p : Nat) (m : Node) :
    (attached nodes n p m).length = nodes.length + 1 := by simp [attached]

theorem attached_self {nodes : List Node} {p : Nat} (hp : p < nodes.length) (n m : Node) :
    (attached nodes n p m)[p]? = some m :=
  List.getElem?_set_self (by simp only [List.length_append]; omega)

theorem attached_last {nodes : List Node} {p : Nat} (hp : p < nodes.length) (n m : Node) :
    (attached nodes n p m)[nodes.length]? = some n := by
  rw [attached, List.getElem?_set_ne (by omega), List.getElem?_concat_length]

theorem attached_other {nodes : List Node} {p q : Nat} (hq : q < nodes.length) (hne : q ≠ p) (n m : Node) :
    (attached nodes n p m)[q]? = nodes[q]? := by
  rw [attached, List.getElem?_set_ne (Ne.symm hne), List.getElem?_append_left hq]

theorem OpenStack.lt_length {nodes : List Node} {stack : List Nat} (h : OpenStack nodes stack) :
    ∀ p ∈ stack, p < nodes.length := by
  intro p hp
  obtain ⟨_, internals⟩ := h
  obtain ⟨_, _, _, here⟩ := internals p hp
  exact (List.getElem?_eq_some_iff.mp here).1

theorem OpenStack.pushOpen {nodes : List Node} {p : Nat} {stack below : List Nat} {isLeaf : Bool} {n : Node}
    {a b : Word} {w : DWord} (h : OpenStack nodes (p :: stack)) (kind : NewNode isLeaf n)
    (sub : below.Sublist (p :: stack)) :
    OpenStack (attached nodes n p (.internal a b w)) (pushOpen isLeaf nodes.length below) := by
  have inRange := h.lt_length
  obtain ⟨distinct, internals⟩ := h
  have old : OpenStack (attached nodes n p (.internal a b w)) below := by
    refine ⟨distinct.sublist sub, fun q hq => ?_⟩
    have hq := sub.subset hq
    by_cases same : q = p
    · exact ⟨a, b, w, same ▸ attached_self (inRange p List.mem_cons_self) n _⟩
    · rw [attached_other (inRange q hq) same]; exact internals q hq
  cases kind with
  | leaf c => exact old
  | internal =>
    obtain ⟨distinct', internals'⟩ := old
    refine ⟨List.nodup_cons.mpr ⟨fun self => ?_, distinct'⟩, List.forall_mem_cons.mpr ⟨?_, internals'⟩⟩
    · exact absurd (inRange _ (sub.subset self)) (Nat.lt_irrefl _)
    · exact ⟨NIL, NIL, 0, attached_last (inRange p List.mem_cons_self) _ _⟩

section Round
variable {nodes new : List Node} {p : Nat} {stack : List Nat} {isLeaf : Bool} {n : Node} {a b : Word} {w : DWord}

/-- The new node in the left slot: its subtree, then the right one, fill the two slots. -/
theorem Completes.of_attach_left (opened : OpenStack nodes (p :: stack)) (small : nodes.length < 2 ^ 32 - 1)
    (kind : NewNode isLeaf n) (before : nodes[p]? = some (.internal NIL b w))
    (h : Completes (attached nodes n p (.internal (BitVec.ofNat 32 nodes.length) b w)) new
      (pushOpen isLeaf nodes.length (p :: stack))) : Completes nodes new (p :: stack) := by
  have inRange := opened.lt_length
  have hp := inRange p List.mem_cons_self
  have apart : p ∉ stack := (List.nodup_cons.mp opened.1).1
  have value : (BitVec.ofNat 32 nodes.length).toNat = nodes.length := Nat.mod_eq_of_lt (by omega)
  obtain ⟨t, k, tree, filled, kept⟩ := h.subtree (length_attached _ _ _ _) (attached_last hp n _) kind
    fun self => Nat.lt_irrefl _ (inRange _ self)
  refine ⟨?_, fun i hi out => (kept i hi out).trans (attached_other hi (List.ne_of_not_mem_cons out) _ _)⟩
  cases filled with
  | right here full after right rest =>
    rw [attached_self hp] at here
    cases here
    refine .both before after (by rwa [value]) right (rest.congr fun q hq => Eq.symm ?_)
    exact attached_other (inRange q (List.mem_cons_of_mem _ hq)) (ne_of_mem_of_not_mem hq apart) _ _
  | both here =>
    rw [attached_self hp] at here
    simp only [Option.some.injEq, Node.internal.injEq] at here
    exact absurd here.1 (ofNat_ne_NIL small)

/-- The new node in the right slot: its subtree fills it. -/
theorem Completes.of_attach_right (opened : OpenStack nodes (p :: stack)) (small : nodes.length < 2 ^ 32 - 1)
    (kind : NewNode isLeaf n) (before : nodes[p]? = some (.internal a b w)) (full : a ≠ NIL)
    (h : Completes (attached nodes n p (.internal a (BitVec.ofNat 32 nodes.length) w)) new
      (pushOpen isLeaf nodes.length stack)) : Completes nodes new (p :: stack) := by
  have inRange := opened.lt_length
  have hp := inRange p List.mem_cons_self
  have apart : p ∉ stack := (List.nodup_cons.mp opened.1).1
  have value : (BitVec.ofNat 32 nodes.length).toNat = nodes.length := Nat.mod_eq_of_lt (by omega)
  obtain ⟨t, k, tree, filled, kept⟩ := h.subtree (length_attached _ _ _ _) (attached_last hp n _) kind
    fun self => Nat.lt_irrefl _ (inRange _ (List.mem_cons_of_mem _ self))
  refine ⟨.right before full ((kept p hp apart).trans (attached_self hp n _)) (by rwa [value])
    (filled.congr fun q hq => Eq.symm ?_), fun i hi out => ?_⟩
  · exact attached_other (inRange q (List.mem_cons_of_mem _ hq)) (ne_of_mem_of_not_mem hq apart) _ _
  · exact (kept i hi (List.not_mem_of_not_mem_cons out)).trans
      (attached_other hi (List.ne_of_not_mem_cons out) _ _)

end Round

/-! ### Phase 1 -/

/-- Phase 1 fills every empty slot, and never makes more than `cap` nodes. -/
theorem fillSlots_completes {nb : Nat} {bit : Nat → Bool} {cap fuel : Nat} {c c' : DecCursor} {stack : List Nat}
    (small : cap < 2 ^ 32) (fit : c.nodes.length ≤ cap) (opened : OpenStack c.nodes stack)
    (h : fillSlots nb bit cap fuel c stack = .ok c') :
    Completes c.nodes c'.nodes stack ∧ c'.nodes.length ≤ cap := by
  induction fuel generalizing c stack with
  | zero =>
    cases stack with
    | nil => cases h; exact ⟨⟨.nil, fun _ _ _ => rfl⟩, fit⟩
    | cons p stack => cases h
  | succ fuel ih =>
    cases stack with
    | nil => cases h; exact ⟨⟨.nil, fun _ _ _ => rfl⟩, fit⟩
    | cons p stack =>
      obtain ⟨isLeaf, c1, read, next⟩ := fillSlots_succ h
      obtain ⟨room, n, kind, nodes⟩ := readNode_ok read
      obtain ⟨a, b, w, here⟩ := opened.2 p List.mem_cons_self
      have hp := opened.lt_length p List.mem_cons_self
      have here' : c1.nodes[p]? = some (.internal a b w) := by rw [nodes, List.getElem?_append_left hp, here]
      by_cases left : a = NIL
      · subst left
        rw [attach_left _ here', nodes] at next
        have next := ih (by simp; omega) (opened.pushOpen kind (.refl _)) next
        exact ⟨.of_attach_left opened (by omega) kind here next.1, next.2⟩
      · rw [attach_right _ here' left, nodes] at next
        have next := ih (by simp; omega) (opened.pushOpen kind (List.sublist_cons_self _ _)) next
        exact ⟨.of_attach_right opened (by omega) kind here left next.1, next.2⟩

/-- The nodes of a tree region are one tree from node 0 on, numbered in preorder (R362). -/
theorem readTreeRegion_holdsTree {nb : Nat} {bit : Nat → Bool} {cap : Nat} {c : DecCursor} (small : cap < 2 ^ 32)
    (h : readTreeRegion nb bit cap = .ok c) :
    c.nodes.length ≤ cap ∧ ∃ t, HoldsTree c.nodes 0 t (List.range c.nodes.length) := by
  unfold readTreeRegion at h
  split at h
  case h_1 => cases h
  case h_2 isLeaf c1 read =>
    obtain ⟨room, n, kind, nodes⟩ := readNode_ok read
    rw [List.nil_append] at nodes
    have opened : OpenStack c1.nodes (pushOpen isLeaf 0 []) := by
      rw [nodes]
      cases kind with
      | leaf x => exact ⟨List.nodup_nil, by simp [pushOpen]⟩
      | internal => exact ⟨by simp [pushOpen], by simp [pushOpen]⟩
    have one : c1.nodes.length = 0 + 1 := by rw [nodes]; rfl
    obtain ⟨completes, fit⟩ := fillSlots_completes small (by simp at room; omega) opened h
    obtain ⟨t, k, tree, filled, -⟩ := completes.subtree one (by rw [nodes]; rfl) kind List.not_mem_nil
    refine ⟨fit, t, ?_⟩
    have all : 0 + k = c.nodes.length := by
      generalize 0 + k = j at filled
      cases filled; rfl
    rwa [← all, Nat.zero_add, List.range_eq_range']

end Sys2Proof.Machine
end

section
/-! The results of the commands stay within their windows (41_frequency_counter.md R240; 43_code_table.md R290;
44_encoder.md R311, R316; 45_decoder.md R361). -/

namespace Sys2Proof.Machine

/-! ### COUNT: at most N_SYM characters -/

/-- The table of COUNT, in strictly ascending order of character (R240). -/
def Ascending (tab : List FreqEntry) : Prop := tab.Pairwise fun d e => d.sym.toNat < e.sym.toNat

theorem mem_bump_sym {c : Word} {tab : List FreqEntry} {e : FreqEntry} (h : e ∈ bump c tab) :
    e.sym = c ∨ ∃ d ∈ tab, d.sym = e.sym := by
  induction tab with
  | nil => simp only [bump, List.mem_singleton] at h; exact .inl (h ▸ rfl)
  | cons d tab ih =>
    rw [bump] at h
    split at h
    case isTrue same =>
      rcases List.mem_cons.mp h with rfl | h
      · exact .inl same.symm
      · exact .inr ⟨e, List.mem_cons_of_mem _ h, rfl⟩
    case isFalse =>
      split at h
      · rcases List.mem_cons.mp h with rfl | h
        · exact .inl rfl
        · exact .inr ⟨e, h, rfl⟩
      · rcases List.mem_cons.mp h with rfl | h
        · exact .inr ⟨e, List.mem_cons_self, rfl⟩
        · exact (ih h).imp_right fun ⟨x, hx, same⟩ => ⟨x, List.mem_cons_of_mem _ hx, same⟩

theorem Ascending.bump {tab : List FreqEntry} (h : Ascending tab) (c : Word) : Ascending (bump c tab) := by
  induction tab with
  | nil => exact List.pairwise_singleton _ _
  | cons d tab ih =>
    obtain ⟨first, rest⟩ := List.pairwise_cons.mp h
    rw [Machine.bump]
    split
    case isTrue => exact List.pairwise_cons.mpr ⟨first, rest⟩
    case isFalse other =>
      have differs : c.toNat ≠ d.sym.toNat := fun same => other (BitVec.eq_of_toNat_eq same)
      split
      case isTrue less =>
        exact List.pairwise_cons.mpr
          ⟨List.forall_mem_cons.mpr ⟨less, fun e he => less.trans (first e he)⟩, h⟩
      case isFalse notLess =>
        refine List.pairwise_cons.mpr ⟨fun e he => ?_, ih rest⟩
        rcases mem_bump_sym he with same | ⟨x, hx, same⟩
        · rw [same]; omega
        · rw [← same]; exact first x hx

theorem hasSym_cons (c : Word) (d : FreqEntry) (tab : List FreqEntry) :
    hasSym c (d :: tab) = (decide (d.sym = c) || hasSym c tab) := rfl

theorem hasSym_eq_false_of_lt {c : Word} {tab : List FreqEntry} (h : ∀ e ∈ tab, c.toNat < e.sym.toNat) :
    hasSym c tab = false := by
  simp only [hasSym, List.any_eq_false, decide_eq_true_eq]
  intro e he same
  exact absurd (h e he) (by simp [same])

/-- A character already in the table adds no entry, a new one adds one. -/
theorem length_bump {tab : List FreqEntry} (h : Ascending tab) (c : Word) :
    (bump c tab).length = if hasSym c tab then tab.length else tab.length + 1 := by
  induction tab with
  | nil => rfl
  | cons d tab ih =>
    obtain ⟨first, rest⟩ := List.pairwise_cons.mp h
    rw [bump, hasSym_cons]
    split
    case isTrue same => simp [same]
    case isFalse other =>
      have other : d.sym ≠ c := Ne.symm other
      split
      case isTrue less =>
        simp [other, hasSym_eq_false_of_lt fun e he => less.trans (first e he)]
      case isFalse =>
        rw [List.length_cons, ih rest]
        cases seen : hasSym c tab <;> simp [other]

theorem countText_length_le {nSym i : Nat} {cs : List Word} {tab tab' : List FreqEntry} (sorted : Ascending tab)
    (fit : tab.length ≤ nSym) (h : countText nSym i cs tab = .ok tab') : tab'.length ≤ nSym := by
  induction cs generalizing i tab with
  | nil => cases h; exact fit
  | cons c cs ih =>
    rw [countText] at h
    split at h
    case isTrue => cases h
    case isFalse =>
      split at h
      case isTrue => cases h
      case isFalse room =>
        refine ih (sorted.bump c) ?_ h
        rw [length_bump sorted]
        cases seen : hasSym c tab
        case true => simpa using fit
        case false => simp [seen] at room ⊢; omega

/-! ### GENCODES: one code for each leaf -/

theorem length_pathsFrom (t : Tree) (path : List Bool) : (pathsFrom t path).length = t.leaves := by
  induction t generalizing path with
  | leaf c => rfl
  | node l r ihl ihr => simp [pathsFrom, Tree.leaves, ihl, ihr]

theorem length_leafCodes (t : Tree) : (leafCodes t).length = t.leaves := by
  cases t with
  | leaf c => rfl
  | node l r => exact length_pathsFrom _ _

theorem length_insertCode (p : Word × List Bool) (l : List (Word × List Bool)) :
    (insertCode p l).length = l.length + 1 := by
  induction l with
  | nil => rfl
  | cons q l ih =>
    rw [insertCode]
    split
    · rfl
    · simp [ih]

theorem length_sortCodes (l : List (Word × List Bool)) : (sortCodes l).length = l.length := by
  induction l with
  | nil => rfl
  | cons p l ih => rw [sortCodes, length_insertCode, ih, List.length_cons]

theorem length_codeTable {lMax : Nat} {t : Tree} {cs : List CodeEntry} (h : codeTable lMax t = .ok cs) :
    cs.length = t.leaves := by
  unfold codeTable at h
  split at h
  case h_1 => cases h
  case h_2 =>
    split at h
    case h_1 => cases h
    case h_2 => cases h; rw [List.length_map, length_sortCodes, length_leafCodes]

/-! ### SERIALIZE: at most OUT_CAP bytes -/

theorem flush_fits {cap : Nat} {v : Byte} {c c' : EncCursor} (fit : c.out.length ≤ cap)
    (h : flush cap v c = .ok c') : c'.out.length ≤ cap := by
  unfold flush at h
  split at h
  case isTrue => cases h
  case isFalse room => cases h; simp; omega

theorem emitBit_fits {cap : Nat} {b : Bool} {c c' : EncCursor} (fit : c.out.length ≤ cap)
    (h : emitBit cap b c = .ok c') : c'.out.length ≤ cap := by
  unfold emitBit at h
  simp only at h
  split at h
  case isTrue =>
    split at h
    case h_1 => cases h
    case h_2 c2 flushed =>
      have fit' := flush_fits (by exact fit) flushed
      cases h
      exact fit'
  case isFalse => cases h; exact fit

theorem emitBits_fits {cap : Nat} {bs : List Bool} {c c' : EncCursor} (fit : c.out.length ≤ cap)
    (h : emitBits cap bs c = .ok c') : c'.out.length ≤ cap := by
  induction bs generalizing c with
  | nil => cases h; exact fit
  | cons b bs ih =>
    rw [emitBits] at h
    split at h
    case h_1 => cases h
    case h_2 c1 emitted => exact ih (emitBit_fits fit emitted) h

theorem emitText_fits {cap i : Nat} {codes : List CodeEntry} {text : List Word} {c c' : EncCursor}
    (fit : c.out.length ≤ cap) (h : emitText cap codes i text c = .ok c') : c'.out.length ≤ cap := by
  induction text generalizing i c with
  | nil => cases h; exact fit
  | cons x text ih =>
    rw [emitText] at h
    split at h
    case isTrue => cases h
    case isFalse =>
      split at h
      case h_1 => cases h
      case h_2 =>
        split at h
        case h_1 => cases h
        case h_2 c1 emitted => exact ih (emitBits_fits fit emitted) h

theorem emitTrailer_fits {cap : Nat} {c c' : EncCursor} (fit : c.out.length ≤ cap)
    (h : emitTrailer cap c = .ok c') : c'.out.length ≤ cap := by
  unfold emitTrailer at h
  simp only at h
  split at h
  case isTrue => exact flush_fits fit h
  case isFalse =>
    split at h
    case h_1 => cases h
    case h_2 c1 flushed => exact flush_fits (flush_fits fit flushed) h

theorem serialize_fits {cap : Nat} {t : Tree} {codes : List CodeEntry} {text : List Word} {r : Stream}
    (h : serialize cap t codes text = .ok r) : r.bytes.length ≤ cap := by
  unfold serialize at h
  split at h
  case h_1 => cases h
  case h_2 c1 tree =>
    split at h
    case h_1 => cases h
    case h_2 c2 payload =>
      split at h
      case h_1 => cases h
      case h_2 c3 trailer =>
        cases h
        exact emitTrailer_fits (emitText_fits (emitBits_fits (c := .start) (Nat.zero_le cap) tree) payload) trailer

/-! ### DECODE: at most OUT_CAP characters -/

theorem emitChar_fits {cap : Nat} {c : Word} {out out' : List Word} (fit : out.length ≤ cap)
    (h : emitChar cap c out = .ok out') : out'.length ≤ cap := by
  unfold emitChar at h
  split at h
  case isTrue => cases h
  case isFalse room => cases h; simp; omega

theorem decodeSingle_fits {sym : Word} {cap pos : Nat} {bs : List Bool} {out out' : List Word}
    (fit : out.length ≤ cap) (h : decodeSingle sym cap bs pos out = .ok out') : out'.length ≤ cap := by
  induction bs generalizing pos out with
  | nil => cases h; exact fit
  | cons b bs ih =>
    rw [decodeSingle] at h
    split at h
    case isTrue => cases h
    case isFalse =>
      split at h
      case h_1 => cases h
      case h_2 out1 emitted => exact ih (emitChar_fits fit emitted) h

theorem decodeWalk_fits {nodes : List Node} {cap stop x : Nat} {bs : List Bool} {out out' : List Word}
    (fit : out.length ≤ cap) (h : decodeWalk nodes cap stop bs x out = .ok out') : out'.length ≤ cap := by
  induction bs generalizing x out with
  | nil =>
    rw [decodeWalk] at h
    split at h
    case isTrue => cases h; exact fit
    case isFalse => cases h
  | cons b bs ih =>
    rw [decodeWalk] at h
    split at h
    case h_1 =>
      split at h
      case h_1 => cases h
      case h_2 out1 emitted => exact ih (emitChar_fits fit emitted) h
    case h_2 => exact ih fit h
    case h_3 => exact ih fit h

theorem decodePayload_fits {bit : Nat → Bool} {nodes : List Node} {cap first stop : Nat} {text : List Word}
    (h : decodePayload bit nodes cap first stop = .ok text) : text.length ≤ cap := by
  unfold decodePayload at h
  simp only at h
  split at h
  case h_1 => exact decodeSingle_fits (out := []) (Nat.zero_le cap) h
  case h_2 => exact decodeWalk_fits (out := []) (Nat.zero_le cap) h
  case h_3 => exact decodeWalk_fits (out := []) (Nat.zero_le cap) h

/-- What DECODE has when its three phases succeed (R350). -/
theorem decodeStream_ok {cfg : Config} {nb low3 : Nat} {bit : Nat → Bool} {d : Decoded} (hc : cfg.wf)
    (h : decodeStream cfg nb bit low3 = .ok d) :
    d.text.length ≤ cfg.outCap ∧ d.nodes.length ≤ cfg.nodeCap ∧
      ∃ t, HoldsTree d.nodes 0 t (List.range d.nodes.length) := by
  unfold decodeStream at h
  split at h
  case h_1 => cases h
  case h_2 c tree =>
    split at h
    case h_1 => cases h
    case h_2 stop _ =>
      split at h
      case h_1 => cases h
      case h_2 text payload =>
        cases h
        have cap := nodeCap_lt hc
        exact ⟨decodePayload_fits payload, readTreeRegion_holdsTree (by omega) tree⟩

end Sys2Proof.Machine
end

section
/-! Every step keeps the invariants of R49 (10_state.md R49; 40_command_lifecycle.md R206). -/

namespace Sys2Proof.Machine

/-! ### How a body ends over a sound state -/

/-- The body ends, with an error or without, in a sound state. -/
def Stage.Sound : Stage → Prop
  | .ok s => s.Sound
  | .raised _ s => s.Sound
  | .stuck _ => False

theorem Stage.Sound.andThen {g : Stage} {f : State → Stage} (h : g.Sound) (hf : ∀ s : State, s.Sound → (f s).Sound) :
    (g.andThen f).Sound := by
  cases g with
  | ok s => exact hf s h
  | raised e s => exact h
  | stuck k => exact h

theorem Stage.Sound.finish {g : Stage} (h : g.Sound) : ∃ t, finish g = .next t ∧ t.Sound := by
  cases g with
  | ok s => exact ⟨_, finish_ok s, complete_sound h⟩
  | raised e s => exact ⟨_, finish_raised e s, errorComplete_sound h e⟩
  | stuck k => exact h.elim

/-! ### The bodies -/

theorem outputFailed_sound {s : State} (h : s.Sound) : (outputFailed s).Sound := scramble_obuf_sound (clearOut_sound h)

theorem countFailed_sound {s : State} (h : s.Sound) : (countFailed s).Sound :=
  scramble_freq_sound (h.of_objects_eq (t := { s with freqN := 0 }) rfl h.memoryOk)

theorem countBody_sound {s : State} (h : s.Sound) : (countBody s).Sound := by
  obtain ⟨-, body⟩ | ⟨e, -, -, body⟩ | ⟨tab, -, counted, body⟩ := countBody_cases s
  case inl => rw [body]; exact countFailed_sound h
  case inr.inl => rw [body]; exact countFailed_sound h
  case inr.inr =>
    rw [body]
    have few : tab.length ≤ s.cfg.nSym := countText_length_le List.Pairwise.nil (Nat.zero_le _) counted
    have window : (Memory.ofWords (tab.flatMap FreqEntry.words)).Fits (Win.freq.size s.cfg) :=
      fits_table FreqEntry.words 2 FreqEntry.length_words (Nat.mul_le_mul_left 8 few)
    exact h.of_objects_eq rfl (h.memoryOk.setWin (w := .freq) window)

theorem buildFrom_sound {s : State} (h : s.Sound) (down : s.treeValid = false) : (buildFrom s).Sound := by
  have failed : (buildFailed s).Sound := scramble_node_sound h down
  obtain ⟨-, body⟩ | ⟨-, -, body⟩ | ⟨e, -, -, -, body⟩ | ⟨nonzero, few, -, body⟩ := buildFrom_cases s
  case inl => rw [body]; exact failed
  case inr.inl => rw [body]; exact failed
  case inr.inr.inl => rw [body]; exact failed
  case inr.inr.inr =>
    rw [body]
    have cap := nodeCap_lt h.cfg_wf
    unfold Config.nodeCap at cap
    have n : (freqEntries s.freq s.freqN.toNat).length = s.freqN.toNat := by simp [freqEntries]
    have positive : s.freqN.toNat ≠ 0 := fun zero => nonzero (BitVec.eq_of_toNat_eq zero)
    obtain ⟨length, tree⟩ :=
      buildNodes_oneTree (es := freqEntries s.freq s.freqN.toNat) (List.ne_nil_of_length_pos (by omega)) (by omega)
    exact installTree_sound h (codesValid_eq_false_of_treeValid h down) tree (by unfold Config.nodeCap; omega)

theorem installCodes_sound {s : State} {t : Tree} {cs : List CodeEntry} (h : s.Sound)
    (valid : s.treeValid = true) (tree : s.tree = some t) (codes : codeTable s.cfg.lMax t = .ok cs) :
    (installCodes cs s).Sound := by
  have cap := nodeCap_lt h.cfg_wf
  have length := length_codeTable codes
  have leaves := length_reachedNodes tree
  obtain ⟨-, few, -, -, all, -⟩ := h.treeOk valid
  rw [all.length_eq, List.length_range] at leaves
  unfold Config.nodeCap at few cap
  have codeN : (BitVec.ofNat 32 cs.length).toNat = cs.length := Nat.mod_eq_of_lt (by omega)
  have window : (Memory.ofWords (cs.flatMap CodeEntry.words)).Fits (Win.code.size s.cfg) :=
    fits_table CodeEntry.words 4 CodeEntry.length_words (Nat.mul_le_mul_left 16 (by omega))
  refine ⟨h.cfg_wf, h.memoryOk.setWin (w := .code) window, ⟨by simp [valid], by simp⟩, fun _ => h.treeOk valid,
    fun _ => ?_⟩
  refine ⟨valid, ⟨t, cs, tree, codes, ?_, ?_⟩, fun o _ => ?_⟩
  · rw [installCodes_codeN, codeN, length]
  · rw [installCodes_codeN, codeN, installCodes_code, codeEntries_ofWords]
  · rw [installCodes_codeN, codeN, installCodes_code,
      show 16 * cs.length + 4 * o = 4 * (4 * cs.length + o) by omega, readWord_ofWords]
    exact List.getD_eq_default _ _ (by rw [length_flatMap_words CodeEntry.words 4 CodeEntry.length_words]; omega)

theorem gencodesFrom_sound {s : State} (h : s.Sound) (codes : s.codesValid = false) :
    (gencodesFrom s).Sound := by
  have failed : (gencodesFailed s).Sound := scramble_code_sound h codes
  obtain ⟨-, body⟩ | ⟨valid, none, -⟩ | ⟨t, e, -, -, -, body⟩ | ⟨t, cs, valid, tree, table, body⟩ :=
    gencodesFrom_cases s
  case inl => rw [body]; exact failed
  case inr.inl => exact absurd none (h.tree_isSome valid)
  case inr.inr.inl => rw [body]; exact failed
  case inr.inr.inr => rw [body]; exact installCodes_sound h valid tree table

theorem serializeBody_sound {s : State} (h : s.Sound) : (serializeBody s).Sound := by
  have failed := outputFailed_sound h
  obtain ⟨-, body⟩ | ⟨-, -, body⟩ | ⟨-, -, -, body⟩ | ⟨ready, -, -, none, -⟩ | ⟨t, e, -, -, -, -, -, body⟩ |
    ⟨t, r, -, -, -, -, stream, body⟩ := serializeBody_cases s
  case inl => rw [body]; exact failed
  case inr.inl => rw [body]; exact failed
  case inr.inr.inl => rw [body]; exact failed
  case inr.inr.inr.inl =>
    obtain ⟨valid, -⟩ := (missingMask_eq_zero s).mp ready
    exact absurd none (h.tree_isSome valid)
  case inr.inr.inr.inr.inl => rw [body]; exact failed
  case inr.inr.inr.inr.inr =>
    rw [body]
    have window : (s.obuf.writeWords 0 (r.bytes.map (fun b => b.setWidth 32))).Fits (Win.obuf.size s.cfg) :=
      Memory.Fits.writeWords (h.memoryOk .obuf)
        (by rw [Nat.zero_add, List.length_map]; exact Nat.mul_le_mul_left 4 (serialize_fits stream))
    exact h.of_objects_eq rfl (h.memoryOk.setWin (w := .obuf) window)

theorem encodeFailed_sound {g : Stage} (h : g.Sound) : g.encodeFailed.Sound := by
  cases g with
  | ok s => exact h
  | raised e s => exact outputFailed_sound h
  | stuck k => exact h

theorem encodeBody_sound {s : State} (h : s.Sound) : (encodeBody s).Sound := by
  have count := countBody_sound h
  have build := count.andThen fun _ hs => buildFrom_sound (clearTree_sound hs) rfl
  have gencodes := build.andThen fun _ hs => gencodesFrom_sound (clearCodes_sound hs) rfl
  exact encodeFailed_sound (gencodes.andThen fun _ hs => serializeBody_sound hs)

theorem decodeFrom_sound {s : State} (h : s.Sound) (tree : s.treeValid = false) : (decodeFrom s).Sound := by
  have failed : (decodeFailed s).Sound := scramble_node_sound (outputFailed_sound h) tree
  obtain ⟨-, body⟩ | ⟨e, -, -, body⟩ | ⟨d, -, decoded, body⟩ := decodeFrom_cases s
  case inl => rw [body]; exact failed
  case inr.inl => rw [body]; exact failed
  case inr.inr =>
    rw [body]
    obtain ⟨short, few, t, region⟩ := decodeStream_ok h.cfg_wf decoded
    have installed := installTree_sound h (codesValid_eq_false_of_treeValid h tree) ⟨t, _, region, .refl _⟩ few
    have window : (s.obuf.writeWords 0 d.text).Fits (Win.obuf.size s.cfg) :=
      Memory.Fits.writeWords (h.memoryOk .obuf) (by rw [Nat.zero_add]; exact Nat.mul_le_mul_left 4 short)
    exact installed.of_objects_eq rfl (installed.memoryOk.setWin (w := .obuf) window)

/-! ### The commands -/

theorem exec_illegal (i : Instr) (s : State) (h : i.illegal = true) :
    exec i s = .next (errorComplete (.illegalCommand (encode i)) s) := by
  cases i with
  | nop | clear | count | build | gencodes | serialize | encode | decode => cases h
  | _ => rfl

/-- Over a sound state every command completes, in a sound state. -/
theorem exec_sound (i : Instr) {s : State} (h : s.Sound) : ∃ t, exec i s = .next t ∧ t.Sound := by
  cases i with
  | nop => exact ⟨_, exec_nop s, complete_sound h⟩
  | clear => exact ⟨_, exec_clear s, complete_sound (clearBody_sound h)⟩
  | count => exact (countBody_sound h).finish
  | build => exact (buildFrom_sound (clearTree_sound h) rfl).finish
  | gencodes => exact (gencodesFrom_sound (clearCodes_sound h) rfl).finish
  | serialize => exact (serializeBody_sound h).finish
  | encode => exact (encodeBody_sound h).finish
  | decode => exact (decodeFrom_sound (clearTree_sound h) rfl).finish
  | _ => exact ⟨_, exec_illegal _ s rfl, errorComplete_sound h _⟩

/-- Settles O55: the meaning of every command ends in a next state. -/
theorem soundStatesCompleteEveryCommand : Obligations.SoundStatesCompleteEveryCommand := by
  intro i s h
  obtain ⟨t, next, -⟩ := exec_sound i h
  exact ⟨t, next⟩

/-! ### The host's turn -/

theorem writeReg_sound {s : State} (h : s.Sound) (r : Reg) (v : Word) : (writeReg r v s).Sound := by
  have objects : (writeReg r v s).objects = s.objects := by cases r <;> rfl
  have windows : (writeReg r v s).win = s.win := by cases r <;> rfl
  have cfg : (writeReg r v s).cfg = s.cfg := congrArg Prod.fst objects
  exact h.of_objects_eq objects (by rw [memoryOk_iff, windows, cfg]; exact h.memoryOk)

theorem setWin_sound {s : State} (h : s.Sound) {w : Win} (writable : w.writable = true) {m : Memory}
    (hm : m.Fits (w.size s.cfg)) : (s.setWin w m).Sound := by
  have objects : (s.setWin w m).objects = s.objects := by
    cases w with
    | ibuf | freq => rfl
    | obuf | node | code => cases writable
  exact h.of_objects_eq objects (h.memoryOk.setWin hm)

theorem hostWrite_sound {s : State} (h : s.Sound) {a : Word} (aligned : a.toNat % 4 = 0) (v : Word) :
    (hostWrite a v s).Sound := by
  obtain ⟨-, -, hazard⟩ | ⟨-, written⟩ := hostWrite_cases a v s
  · rw [hazard]; exact h.of_objects_eq rfl h.memoryOk
  · rw [written]
    cases place : s.locate a with
    | reg r => exact writeReg_sound h r v
    | unmapped => exact h
    | window w o =>
      rw [writeLoc]
      split
      case isFalse => exact h
      case isTrue writable =>
        exact setWin_sound h writable
          (Memory.Fits.writeWord (h.memoryOk w) (locate_window_aligned h.cfg_wf aligned place) v)

theorem hostRead_sound {s : State} (h : s.Sound) (a : Word) : (hostRead a s).2.Sound := by
  obtain ⟨-, -, hazard⟩ | ⟨-, read⟩ := hostRead_cases a s
  · rw [hazard]; exact h.of_objects_eq rfl h.memoryOk
  · rw [read]; exact h

theorem hostEvent_sound {e : HostEvent} {s t : State} (h : s.Sound) (next : hostEvent e s = .next t) : t.Sound := by
  cases e with
  | reset => cases next; exact resetStep_sound h.cfg_wf
  | read a =>
    rw [hostEvent] at next
    split at next
    case isFalse => cases next
    case isTrue =>
      cases next
      have read := hostRead_sound h a
      exact read.of_objects_eq rfl read.memoryOk
  | write a v =>
    rw [hostEvent] at next
    split at next
    case isFalse => cases next
    case isTrue aligned =>
      cases next
      have written := hostWrite_sound h ((wordAligned_iff a).mp aligned) v
      exact written.of_objects_eq rfl written.memoryOk

theorem hostTurn_sound {s t : State} (h : s.Sound) (next : hostTurn s = .next t) : t.Sound := by
  cases events : s.pending with
  | nil => rw [hostTurn_of_pending_nil events] at next; cases next; exact h
  | cons e q =>
    rw [hostTurn_of_pending_cons events] at next
    refine hostEvent_sound ?_ next
    exact h.of_objects_eq rfl h.memoryOk

/-- Settles O54: the engine's step and the host's turn both keep the invariants. -/
theorem stepKeepsSound : Obligations.StepKeepsSound := by
  intro s t h next
  obtain ⟨-, engine⟩ | ⟨-, host⟩ := step_cases s
  · obtain ⟨u, completes, sound⟩ := exec_sound s.command h
    rw [engine, completes] at next
    cases next
    exact sound
  · exact hostTurn_sound h (host ▸ next)

/-! ### Where the model stops -/

theorem gencodesFrom_stuck {s : State} (valid : s.treeValid = true) (none : s.tree = none) :
    gencodesFrom s = .stuck .nodeMemoryNotATree := by
  simp [gencodesFrom, valid, none]

theorem serializeBody_stuck {s : State} (tree : s.treeValid = true) (codes : s.codesValid = true)
    (text : s.inLen ≠ 0) (fits : s.inLen.toNat ≤ s.cfg.inCap) (none : s.tree = none) :
    serializeBody s = .stuck .nodeMemoryNotATree := by
  have ready : missingMask s = 0 := (missingMask_eq_zero s).mpr ⟨tree, codes⟩
  rw [serializeBody, if_neg (not_not_intro ready), if_neg (Nat.not_lt_of_le fits), if_neg text, none]

/-- Settles O57: without a tree the walks are stuck, and over a sound state every command completes. -/
theorem nodeMemoryWithoutTreeStops : Obligations.NodeMemoryWithoutTreeStops := by
  refine ⟨fun s valid none => ⟨?_, fun codes text fits => ?_⟩, fun i s f fault sound => ?_⟩
  · rw [exec_gencodes, gencodesFrom_stuck (s := clearCodes s) valid none, finish_stuck]
  · rw [exec_serialize, serializeBody_stuck valid codes text fits none, finish_stuck]
  · obtain ⟨t, next, -⟩ := exec_sound i sound
    rw [next] at fault
    cases fault

end Sys2Proof.Machine
end

section
/-! Who sets and who clears the validity flags (10_state.md R37; 43_code_table.md R297; 45_decoder.md R351). -/

namespace Sys2Proof.Machine

/-! ### The state in which a body ends -/

/-- The body ends in `u`, with an error or without. -/
def Stage.EndsIn (g : Stage) (u : State) : Prop := g = .ok u ∨ ∃ e, g = .raised e u

@[simp] theorem endsIn_ok (s u : State) : (Stage.ok s).EndsIn u ↔ u = s := by
  simp [Stage.EndsIn, eq_comm]

@[simp] theorem endsIn_raised (e : CmdError) (s u : State) : (Stage.raised e s).EndsIn u ↔ u = s := by
  simp [Stage.EndsIn, eq_comm]

@[simp] theorem not_endsIn_stuck (f : Fault) (u : State) : ¬(Stage.stuck f).EndsIn u := by
  simp [Stage.EndsIn]

/-- Completion keeps the flags and CODE_N as the body leaves them (R205, R415). -/
theorem finish_next_flags {g : Stage} {t : State} (h : finish g = .next t) :
    ∃ u, g.EndsIn u ∧ t.treeValid = u.treeValid ∧ t.codesValid = u.codesValid ∧ t.codeN = u.codeN := by
  obtain ⟨u, ended, rfl⟩ | ⟨e, u, ended, rfl⟩ := finish_next h
  · exact ⟨u, .inl ended, rfl, rfl, rfl⟩
  · exact ⟨u, .inr ⟨e, ended⟩, rfl, rfl, rfl⟩

theorem countBody_endsIn {s u : State} (h : (countBody s).EndsIn u) :
    u = countFailed s ∨ ∃ tab, u = installFreq tab s := by
  obtain ⟨-, body⟩ | ⟨e, -, -, body⟩ | ⟨tab, -, -, body⟩ := countBody_cases s <;> rw [body] at h
  · exact .inl ((endsIn_raised ..).mp h)
  · exact .inl ((endsIn_raised ..).mp h)
  · exact .inr ⟨tab, (endsIn_ok ..).mp h⟩

theorem buildFrom_endsIn {s u : State} (h : (buildFrom s).EndsIn u) :
    u = buildFailed s ∨ ∃ ns r, u = installTree ns r s := by
  obtain ⟨-, body⟩ | ⟨-, -, body⟩ | ⟨e, -, -, -, body⟩ | ⟨-, -, -, body⟩ := buildFrom_cases s <;> rw [body] at h
  · exact .inl ((endsIn_raised ..).mp h)
  · exact .inl ((endsIn_raised ..).mp h)
  · exact .inl ((endsIn_raised ..).mp h)
  · exact .inr ⟨_, _, (endsIn_ok ..).mp h⟩

theorem gencodesFrom_endsIn {s u : State} (h : (gencodesFrom s).EndsIn u) :
    u = gencodesFailed s ∨ ∃ cs, u = installCodes cs s := by
  obtain ⟨-, body⟩ | ⟨-, -, body⟩ | ⟨t, e, -, -, -, body⟩ | ⟨t, cs, -, -, -, body⟩ := gencodesFrom_cases s <;>
    rw [body] at h
  · exact .inl ((endsIn_raised ..).mp h)
  · exact absurd h (not_endsIn_stuck _ _)
  · exact .inl ((endsIn_raised ..).mp h)
  · exact .inr ⟨cs, (endsIn_ok ..).mp h⟩

theorem serializeBody_endsIn {s u : State} (h : (serializeBody s).EndsIn u) :
    u = outputFailed s ∨ ∃ r, u = installStream r s := by
  obtain ⟨-, body⟩ | ⟨-, -, body⟩ | ⟨-, -, -, body⟩ | ⟨-, -, -, -, body⟩ | ⟨t, e, -, -, -, -, -, body⟩ |
    ⟨t, r, -, -, -, -, -, body⟩ := serializeBody_cases s <;> rw [body] at h
  · exact .inl ((endsIn_raised ..).mp h)
  · exact .inl ((endsIn_raised ..).mp h)
  · exact .inl ((endsIn_raised ..).mp h)
  · exact absurd h (not_endsIn_stuck _ _)
  · exact .inl ((endsIn_raised ..).mp h)
  · exact .inr ⟨r, (endsIn_ok ..).mp h⟩

theorem decodeFrom_endsIn {s u : State} (h : (decodeFrom s).EndsIn u) :
    u = decodeFailed s ∨ ∃ d, u = installDecoded d s := by
  obtain ⟨-, body⟩ | ⟨e, -, -, body⟩ | ⟨d, -, -, body⟩ := decodeFrom_cases s <;> rw [body] at h
  · exact .inl ((endsIn_raised ..).mp h)
  · exact .inl ((endsIn_raised ..).mp h)
  · exact .inr ⟨d, (endsIn_ok ..).mp h⟩

/-! ### The flags each command leaves -/

theorem exec_count_flags {s t : State} (h : exec .count s = .next t) :
    t.treeValid = s.treeValid ∧ t.codesValid = s.codesValid := by
  obtain ⟨u, ended, tree, codes, -⟩ := finish_next_flags h
  rw [tree, codes]
  obtain rfl | ⟨tab, rfl⟩ := countBody_endsIn ended <;> exact ⟨rfl, rfl⟩

theorem exec_build_codes {s t : State} (h : exec .build s = .next t) : t.codesValid = false ∧ t.codeN = 0 := by
  obtain ⟨u, ended, -, codes, codeN⟩ := finish_next_flags h
  rw [codes, codeN]
  obtain rfl | ⟨ns, r, rfl⟩ := buildFrom_endsIn ended <;> exact ⟨rfl, rfl⟩

theorem exec_gencodes_tree {s t : State} (h : exec .gencodes s = .next t) : t.treeValid = s.treeValid := by
  obtain ⟨u, ended, tree, -, -⟩ := finish_next_flags h
  rw [tree]
  obtain rfl | ⟨cs, rfl⟩ := gencodesFrom_endsIn ended <;> rfl

theorem exec_serialize_flags {s t : State} (h : exec .serialize s = .next t) :
    t.treeValid = s.treeValid ∧ t.codesValid = s.codesValid := by
  obtain ⟨u, ended, tree, codes, -⟩ := finish_next_flags h
  rw [tree, codes]
  obtain rfl | ⟨r, rfl⟩ := serializeBody_endsIn ended <;> exact ⟨rfl, rfl⟩

theorem exec_decode_codes {s t : State} (h : exec .decode s = .next t) : t.codesValid = false ∧ t.codeN = 0 := by
  obtain ⟨u, ended, -, codes, codeN⟩ := finish_next_flags h
  rw [codes, codeN]
  obtain rfl | ⟨d, rfl⟩ := decodeFrom_endsIn ended <;> exact ⟨rfl, rfl⟩

/-- Settles O52, by the command: each of its flags is kept, cleared at the start, or the command's own to set. -/
theorem validityFlagsFollowTheirObjects : Obligations.ValidityFlagsFollowTheirObjects := by
  intro i s t h
  cases i with
  | nop =>
    cases h
    exact ⟨.inr, .inr, by simp, by simp⟩
  | clear =>
    cases h
    exact ⟨by simp, by simp, fun _ => ⟨rfl, rfl⟩, fun _ => ⟨rfl, rfl, rfl⟩⟩
  | count =>
    obtain ⟨tree, codes⟩ := exec_count_flags h
    exact ⟨fun up => .inr (tree ▸ up), fun up => .inr (codes ▸ up), by simp, by simp⟩
  | build =>
    obtain ⟨codes, codeN⟩ := exec_build_codes h
    exact ⟨fun _ => .inl (by simp), by simp [codes], fun _ => ⟨codes, codeN⟩, by simp⟩
  | gencodes =>
    have tree := exec_gencodes_tree h
    exact ⟨fun up => .inr (tree ▸ up), fun _ => .inl (by simp), by simp, by simp⟩
  | serialize =>
    obtain ⟨tree, codes⟩ := exec_serialize_flags h
    exact ⟨fun up => .inr (tree ▸ up), fun up => .inr (codes ▸ up), by simp, by simp⟩
  | encode => exact ⟨fun _ => .inl (by simp), fun _ => .inl (by simp), by simp, by simp⟩
  | decode =>
    obtain ⟨codes, codeN⟩ := exec_decode_codes h
    exact ⟨fun _ => .inl (by simp), by simp [codes], fun _ => ⟨codes, codeN⟩, by simp⟩
  | _ =>
    rw [exec_illegal _ s rfl] at h
    cases h
    exact ⟨.inr, .inr, by simp, by simp⟩

end Sys2Proof.Machine
end

section
/-! Every step keeps every window's contents in canonical form (20_memory.md R104, R108; log 5). -/

namespace Sys2Proof.Machine

/-- All five windows are in canonical form. -/
def State.MemoryCanonical (s : State) : Prop := ∀ w : Win, (s.win w).wf

theorem State.MemoryCanonical.of_win_eq {s t : State} (h : s.MemoryCanonical) (windows : t.win = s.win) :
    t.MemoryCanonical := fun w => windows ▸ h w

theorem State.MemoryCanonical.setWin {s : State} (h : s.MemoryCanonical) (w : Win) {m : Memory} (hm : m.wf) :
    (s.setWin w m).MemoryCanonical := by
  intro v
  rw [win_setWin]
  split
  · exact hm
  · exact h v

theorem State.MemoryCanonical.scramble {s : State} (h : s.MemoryCanonical) (w : Win) :
    (scramble w s).MemoryCanonical := by
  intro v
  rw [win_scramble]
  split
  · exact wf_empty _
  · exact h v

theorem resetStep_memoryCanonical (s : State) : (resetStep s).MemoryCanonical := by
  intro w
  cases w <;> exact wf_empty _

/-! ### The bodies -/

/-- Wherever the body ends, with an error or without, the windows are in canonical form. -/
def Stage.MemoryCanonical (g : Stage) : Prop := ∀ u : State, g.EndsIn u → u.MemoryCanonical

theorem Stage.MemoryCanonical.andThen {g : Stage} {f : State → Stage} (h : g.MemoryCanonical)
    (hf : ∀ s : State, s.MemoryCanonical → (f s).MemoryCanonical) : (g.andThen f).MemoryCanonical := by
  cases g with
  | ok s => exact hf s (h s ((endsIn_ok ..).mpr rfl))
  | raised e s => exact h
  | stuck k => exact h

theorem Stage.MemoryCanonical.finish {g : Stage} {t : State} (h : g.MemoryCanonical) (next : finish g = .next t) :
    t.MemoryCanonical := by
  obtain ⟨u, ended, rfl⟩ | ⟨e, u, ended, rfl⟩ := finish_next next
  · exact (h u (.inl ended)).of_win_eq rfl
  · exact (h u (.inr ⟨e, ended⟩)).of_win_eq rfl

theorem outputFailed_memoryCanonical {s : State} (h : s.MemoryCanonical) : (outputFailed s).MemoryCanonical :=
  (h.of_win_eq (t := clearOut s) rfl).scramble .obuf

theorem countBody_memoryCanonical {s : State} (h : s.MemoryCanonical) : (countBody s).MemoryCanonical := by
  intro u ended
  obtain rfl | ⟨tab, rfl⟩ := countBody_endsIn ended
  · exact (h.of_win_eq (t := { s with freqN := 0 }) rfl).scramble .freq
  · exact (h.setWin .freq (wf_ofWords (tab.flatMap FreqEntry.words))).of_win_eq rfl

theorem installTree_memoryCanonical {s : State} (h : s.MemoryCanonical) (ns : List Node) (r : Nat) :
    (installTree ns r s).MemoryCanonical :=
  (h.setWin .node (wf_ofWords (ns.flatMap Node.words))).of_win_eq rfl

theorem buildFrom_memoryCanonical {s : State} (h : s.MemoryCanonical) : (buildFrom s).MemoryCanonical := by
  intro u ended
  obtain rfl | ⟨ns, r, rfl⟩ := buildFrom_endsIn ended
  · exact h.scramble .node
  · exact installTree_memoryCanonical h ns r

theorem gencodesFrom_memoryCanonical {s : State} (h : s.MemoryCanonical) : (gencodesFrom s).MemoryCanonical := by
  intro u ended
  obtain rfl | ⟨cs, rfl⟩ := gencodesFrom_endsIn ended
  · exact h.scramble .code
  · exact (h.setWin .code (wf_ofWords (cs.flatMap CodeEntry.words))).of_win_eq rfl

theorem serializeBody_memoryCanonical {s : State} (h : s.MemoryCanonical) : (serializeBody s).MemoryCanonical := by
  intro u ended
  obtain rfl | ⟨r, rfl⟩ := serializeBody_endsIn ended
  · exact outputFailed_memoryCanonical h
  · exact (h.setWin .obuf (wf_writeWords (h .obuf) 0 (r.bytes.map (fun b => b.setWidth 32)))).of_win_eq rfl

theorem encodeFailed_memoryCanonical {g : Stage} (h : g.MemoryCanonical) : g.encodeFailed.MemoryCanonical := by
  cases g with
  | ok s => exact h
  | stuck k => exact h
  | raised e s =>
    intro u ended
    obtain rfl := (endsIn_raised ..).mp ended
    exact outputFailed_memoryCanonical (h s ((endsIn_raised ..).mpr rfl))

theorem encodeBody_memoryCanonical {s : State} (h : s.MemoryCanonical) : (encodeBody s).MemoryCanonical := by
  have count := countBody_memoryCanonical h
  have build := count.andThen fun s hs => buildFrom_memoryCanonical (hs.of_win_eq (t := clearTree s) rfl)
  have gencodes := build.andThen fun s hs => gencodesFrom_memoryCanonical (hs.of_win_eq (t := clearCodes s) rfl)
  exact encodeFailed_memoryCanonical (gencodes.andThen fun _ => serializeBody_memoryCanonical)

theorem decodeFrom_memoryCanonical {s : State} (h : s.MemoryCanonical) : (decodeFrom s).MemoryCanonical := by
  intro u ended
  obtain rfl | ⟨d, rfl⟩ := decodeFrom_endsIn ended
  · exact (outputFailed_memoryCanonical h).scramble .node
  · have installed := installTree_memoryCanonical h d.nodes 0
    exact (installed.setWin .obuf (wf_writeWords (h .obuf) 0 d.text)).of_win_eq rfl

/-! ### The engine's step and the host's turn -/

theorem exec_memoryCanonical (i : Instr) {s t : State} (h : s.MemoryCanonical) (next : exec i s = .next t) :
    t.MemoryCanonical := by
  cases i with
  | nop => cases next; exact h.of_win_eq rfl
  | clear => cases next; exact h.of_win_eq rfl
  | count => exact (countBody_memoryCanonical h).finish next
  | build => exact (buildFrom_memoryCanonical (h.of_win_eq (t := clearTree s) rfl)).finish next
  | gencodes => exact (gencodesFrom_memoryCanonical (h.of_win_eq (t := clearCodes s) rfl)).finish next
  | serialize => exact (serializeBody_memoryCanonical h).finish next
  | encode => exact (encodeBody_memoryCanonical h).finish next
  | decode => exact (decodeFrom_memoryCanonical (h.of_win_eq (t := clearTree s) rfl)).finish next
  | _ =>
    rw [exec_illegal _ s rfl] at next
    cases next
    exact h.of_win_eq rfl

theorem win_writeReg (r : Reg) (v : Word) (s : State) : (writeReg r v s).win = s.win := by cases r <;> rfl

theorem writeLoc_memoryCanonical {s : State} (h : s.MemoryCanonical) (l : Loc) (v : Word) :
    (writeLoc l v s).MemoryCanonical := by
  cases l with
  | reg r => exact h.of_win_eq (win_writeReg r v s)
  | unmapped => exact h
  | window w o =>
    rw [writeLoc]
    split
    · exact h.setWin w (wf_writeWord (h w) o v)
    · exact h

theorem hostWrite_memoryCanonical {s : State} (h : s.MemoryCanonical) (a v : Word) :
    (hostWrite a v s).MemoryCanonical := by
  obtain ⟨-, -, hazard⟩ | ⟨-, written⟩ := hostWrite_cases a v s
  · rw [hazard]; exact h.of_win_eq rfl
  · rw [written]; exact writeLoc_memoryCanonical h (s.locate a) v

theorem hostRead_memoryCanonical {s : State} (h : s.MemoryCanonical) (a : Word) :
    (hostRead a s).2.MemoryCanonical := by
  obtain ⟨-, -, hazard⟩ | ⟨-, read⟩ := hostRead_cases a s
  · rw [hazard]; exact h.of_win_eq rfl
  · rw [read]; exact h

theorem hostEvent_memoryCanonical {e : HostEvent} {s t : State} (h : s.MemoryCanonical)
    (next : hostEvent e s = .next t) : t.MemoryCanonical := by
  cases e with
  | reset => cases next; exact resetStep_memoryCanonical s
  | read a =>
    rw [hostEvent] at next
    split at next
    case isFalse => cases next
    case isTrue => cases next; exact (hostRead_memoryCanonical h a).of_win_eq rfl
  | write a v =>
    rw [hostEvent] at next
    split at next
    case isFalse => cases next
    case isTrue => cases next; exact (hostWrite_memoryCanonical h a v).of_win_eq rfl

theorem hostTurn_memoryCanonical {s t : State} (h : s.MemoryCanonical) (next : hostTurn s = .next t) :
    t.MemoryCanonical := by
  cases events : s.pending with
  | nil => rw [hostTurn_of_pending_nil events] at next; cases next; exact h
  | cons e q =>
    rw [hostTurn_of_pending_cons events] at next
    refine hostEvent_memoryCanonical ?_ next
    exact h.of_win_eq rfl

/-- Settles O53: a window is written word by word, written anew, or becomes unspecified, and each keeps the form. -/
theorem stepKeepsMemoryCanonical : Obligations.StepKeepsMemoryCanonical := by
  intro s t (h : s.MemoryCanonical) next
  obtain ⟨-, engine⟩ | ⟨-, host⟩ := step_cases s
  · exact exec_memoryCanonical s.command h (engine ▸ next)
  · exact hostTurn_memoryCanonical h (host ▸ next)

end Sys2Proof.Machine
end

section
/-! Accesses that have no effect: unmapped addresses, read-only registers and windows, reserved bits, and addresses the bus
cannot carry (20_memory.md R103, R106, R107). -/

namespace Sys2Proof.Machine

/-! ### What is unmapped (R106) -/

theorem mem_allRegs (r : Reg) : r ∈ allRegs := by cases r <;> decide

theorem mem_allWins (w : Win) : w ∈ allWins := by cases w <;> decide

theorem locate_eq_unmapped_iff (c : Config) (o : Nat) :
    locate c o = .unmapped ↔ (∀ r : Reg, o ≠ r.offset) ∧ ∀ w : Win, ¬(w.base ≤ o ∧ o < w.base + w.size c) := by
  have noReg : allRegs.find? (fun r => r.offset = o) = none ↔ ∀ r : Reg, o ≠ r.offset := by
    simp [List.find?_eq_none, mem_allRegs, eq_comm (a := o)]
  have noWin : allWins.find? (fun w => w.base ≤ o ∧ o < w.base + w.size c) = none ↔
      ∀ w : Win, ¬(w.base ≤ o ∧ o < w.base + w.size c) := by
    simp [List.find?_eq_none, mem_allWins]
  rw [← noReg, ← noWin, locate]
  cases allRegs.find? (fun r => r.offset = o) with
  | some r => simp
  | none =>
    cases allWins.find? (fun w => w.base ≤ o ∧ o < w.base + w.size c) with
    | some w => simp
    | none => simp

/-! ### Writes that are ignored (R106, R107) -/

/-- Where a write has no effect, it changes HAZ at most, and while idle nothing (R107, R210). -/
theorem hostWrite_of_writeLoc_eq_self {s : State} {a v : Word} (ignored : writeLoc (s.locate a) v s = s) :
    { hostWrite a v s with haz := s.haz } = s ∧ (s.busy = false → hostWrite a v s = s) := by
  refine ⟨?_, fun idle => (hostWrite_of_idle idle a v).trans ignored⟩
  obtain ⟨-, -, hazard⟩ | ⟨-, written⟩ := hostWrite_cases a v s
  · rw [hazard]; rfl
  · rw [written, ignored]

/-- A read that R210 does not allow. -/
theorem hostRead_of_hazard {s : State} {a : Word} (busy : s.busy = true) (denied : (s.locate a).readAllowed = false) :
    hostRead a s = (0, setHaz s) := by
  rw [hostRead, busy, denied]; rfl

/-- A write that R210 does not allow. -/
theorem hostWrite_of_hazard {s : State} {a : Word} (busy : s.busy = true)
    (denied : (s.locate a).writeAllowed = false) (v : Word) : hostWrite a v s = setHaz s := by
  rw [hostWrite, busy, denied]; rfl

/-- Settles O14: an offset no search finds is unmapped, and an unmapped address is read as 0 and not written. -/
theorem unmappedReadsZeroAndIgnoresWrites : Obligations.UnmappedReadsZeroAndIgnoresWrites := by
  refine ⟨fun c o => ?_, fun s a v place => ?_⟩
  · rw [locate_eq_unmapped_iff]
    refine and_congr_right fun _ => ⟨fun outside => ?_, fun ⟨ibuf, obuf, freq, node, code⟩ w => ?_⟩
    · exact ⟨outside .ibuf, outside .obuf, outside .freq, outside .node, outside .code⟩
    · cases w with
      | ibuf => exact ibuf
      | obuf => exact obuf
      | freq => exact freq
      | node => exact node
      | code => exact code
  · have ignored : writeLoc (s.locate a) v s = s := by rw [place]; rfl
    have readDenied : (s.locate a).readAllowed = false := by rw [place]; rfl
    have writeDenied : (s.locate a).writeAllowed = false := by rw [place]; rfl
    refine ⟨?_, fun idle => ⟨?_, ?_⟩, fun busy => ⟨?_, ?_⟩⟩
    · cases busy : s.busy
      · rw [hostRead_of_idle busy, place]; rfl
      · rw [hostRead_of_hazard busy readDenied]
    · rw [hostRead_of_idle idle]
    · rw [hostWrite_of_idle idle, ignored]
    · rw [hostRead_of_hazard busy readDenied]; rfl
    · rw [hostWrite_of_hazard busy writeDenied]; rfl

/-! ### Reserved bits (R107) -/

theorem toNat_status_lt (s : State) : s.status.toNat < 64 := by
  obtain ⟨-, -, -, reserved⟩ := statusReadsMaskedWhileBusy s
  exact Nat.lt_pow_two_of_testBit (n := 6) s.status.toNat reserved

theorem writeCtrl_and_one (v : Word) (s : State) : writeCtrl (v &&& 0x1) s = writeCtrl v s := by
  simp [writeCtrl]

/-- 0xE is bits 1 to 3, the W1C bits of STATUS (R38). -/
theorem ackStatus_and_w1c (v : Word) (s : State) : ackStatus (v &&& 0xE) s = ackStatus v s := by
  simp [ackStatus]

/-- Settles O15: a write to a read-only place leads nowhere, and only the defined bits of CTRL and STATUS count. -/
theorem readOnlyWritesAreIgnored : Obligations.ReadOnlyWritesAreIgnored := by
  refine ⟨fun s a v r place readOnly => ?_, fun s a v w o place readOnly => ?_, fun s v => ⟨?_, ?_, ?_, ?_, ?_⟩⟩
  · refine hostWrite_of_writeLoc_eq_self ?_
    rw [place]
    cases r with
    | ctrl | cmd | status | inLen | freqN => simp at readOnly
    | _ => rfl
  · refine hostWrite_of_writeLoc_eq_self ?_
    rw [place]
    cases w with
    | ibuf | freq => simp at readOnly
    | obuf | node | code => rfl
  · rw [State.ctrl]; split <;> decide
  · exact toNat_status_lt s
  · rw [State.readReg, BitVec.toNat_setWidth, Nat.mod_eq_of_lt] <;> omega
  · exact (writeCtrl_and_one v s).symm
  · exact (ackStatus_and_w1c v s).symm

/-! ### Addresses the bus cannot carry (R103) -/

/-- Settles O16: neither event's address passes the test of alignment. -/
theorem misalignedAddressIsRefused : Obligations.MisalignedAddressIsRefused := by
  intro s a v h
  have misaligned : ¬wordAligned a = true := fun aligned => h ((wordAligned_iff a).mp aligned)
  exact ⟨if_neg misaligned, if_neg misaligned⟩

end Sys2Proof.Machine
end

section
/-! The decoder by the rows of the opcode table, and the encoder as its inverse (30_encoding.md R140 to R144). -/

namespace Sys2Proof

/-! ### The rows of the reserved bits -/

/-- The rows of the reserved bits 4 to 31 (R144), in the order of their bits. -/
def rsvdRows : List (Word → Instr) :=
  [.rsvdBit4, .rsvdBit5, .rsvdBit6, .rsvdBit7, .rsvdBit8, .rsvdBit9, .rsvdBit10, .rsvdBit11, .rsvdBit12, .rsvdBit13,
    .rsvdBit14, .rsvdBit15, .rsvdBit16, .rsvdBit17, .rsvdBit18, .rsvdBit19, .rsvdBit20, .rsvdBit21, .rsvdBit22,
    .rsvdBit23, .rsvdBit24, .rsvdBit25, .rsvdBit26, .rsvdBit27, .rsvdBit28, .rsvdBit29, .rsvdBit30, .rsvdBit31]

/-- The search for the lowest set bit of `w` from bit `n` on, each bit with its row; without one, OP selects. -/
def selectRow (w : Word) : Nat → List (Word → Instr) → Instr
  | _, [] => decodeOp (w.extractLsb' 0 4)
  | n, r :: rs => if w.getLsbD n then r w else selectRow w (n + 1) rs

theorem decode_eq_selectRow (w : Word) : decode w = selectRow w 4 rsvdRows := rfl

/-- The search stops at a row whose bit is set and no bit before it, or finds every bit clear. -/
theorem selectRow_cases (w : Word) (n : Nat) (rows : List (Word → Instr)) :
    (∃ k r, rows[k]? = some r ∧ w.getLsbD (n + k) = true ∧ (∀ j < k, w.getLsbD (n + j) = false) ∧
      selectRow w n rows = r w) ∨
    ((∀ k < rows.length, w.getLsbD (n + k) = false) ∧ selectRow w n rows = decodeOp (w.extractLsb' 0 4)) := by
  induction rows generalizing n with
  | nil => exact .inr ⟨by simp, rfl⟩
  | cons r rows ih =>
    cases first : w.getLsbD n with
    | true => exact .inl ⟨0, r, rfl, first, by simp, by rw [selectRow, if_pos first]⟩
    | false =>
      have next : selectRow w n (r :: rows) = selectRow w (n + 1) rows := by
        rw [selectRow, if_neg (by simp [first])]
      have clear : ∀ {j}, (∀ i < j, w.getLsbD (n + 1 + i) = false) → ∀ i < j + 1, w.getLsbD (n + i) = false := by
        intro j below i hi
        cases i with
        | zero => exact first
        | succ i => rw [Nat.add_comm i, ← Nat.add_assoc]; exact below i (by omega)
      rw [next]
      rcases ih (n + 1) with ⟨k, r', row, set, below, found⟩ | ⟨none, found⟩
      · exact .inl ⟨k + 1, r', row, by rwa [Nat.add_comm k, ← Nat.add_assoc], clear below, found⟩
      · exact .inr ⟨clear none, found⟩

theorem lowestRsvd_iff (n : Nat) (w : Word) :
    lowestRsvd (4 + n) w = true ↔ w.getLsbD (4 + n) = true ∧ ∀ j < n, w.getLsbD (4 + j) = false := by
  simp [lowestRsvd]

theorem lowestRsvd_unique {n m : Nat} {w : Word} (hn : lowestRsvd (4 + n) w = true)
    (hm : lowestRsvd (4 + m) w = true) : n = m := by
  obtain ⟨setN, clearN⟩ := (lowestRsvd_iff n w).mp hn
  obtain ⟨setM, clearM⟩ := (lowestRsvd_iff m w).mp hm
  rcases Nat.lt_trichotomy n m with less | same | greater
  · rw [clearM n less] at setN; cases setN
  · exact same
  · rw [clearN m greater] at setM; cases setM

theorem le_toNat_of_lowestRsvd {n : Nat} {w : Word} (h : lowestRsvd (4 + n) w = true) : 16 ≤ w.toNat :=
  calc 16 = 2 ^ 4 := rfl
    _ ≤ 2 ^ (4 + n) := Nat.pow_le_pow_right (by decide) (Nat.le_add_right 4 n)
    _ ≤ w.toNat := Nat.ge_two_pow_of_testBit ((lowestRsvd_iff n w).mp h).1

/-- Bits [31:4] of a word that holds only an OP are 0. -/
theorem toNat_lt_of_rsvd_clear {w : Word} (h : ∀ k < 28, w.getLsbD (4 + k) = false) : w.toNat < 16 := by
  refine Nat.lt_pow_two_of_testBit (n := 4) w.toNat fun i hi => ?_
  obtain ⟨k, rfl⟩ := Nat.exists_eq_add_of_le hi
  by_cases inside : k < 28
  · exact h k inside
  · exact BitVec.getLsbD_of_ge w (4 + k) (by omega)

/-- All that the decoder can answer (R144). -/
theorem decode_cases (w : Word) :
    (∃ k r, rsvdRows[k]? = some r ∧ lowestRsvd (4 + k) w = true ∧ decode w = r w) ∨
    (w.toNat < 16 ∧ decode w = decodeOp (w.extractLsb' 0 4)) := by
  rw [decode_eq_selectRow]
  rcases selectRow_cases w 4 rsvdRows with ⟨k, r, row, set, below, found⟩ | ⟨none, found⟩
  · exact .inl ⟨k, r, row, (lowestRsvd_iff k w).mpr ⟨set, below⟩, found⟩
  · exact .inr ⟨toNat_lt_of_rsvd_clear none, found⟩

/-! ### What the rows have in common -/

theorem encode_of_mem_rsvdRows {r : Word → Instr} (h : r ∈ rsvdRows) (w : Word) : encode (r w) = w := by
  have all : rsvdRows.Forall fun r => encode (r w) = w := by simp [rsvdRows, encode]
  exact List.forall_iff_forall_mem.mp all r h

theorem illegal_of_mem_rsvdRows {r : Word → Instr} (h : r ∈ rsvdRows) (w : Word) : (r w).illegal = true := by
  have all : rsvdRows.Forall fun r => (r w).illegal = true := by simp [rsvdRows, Instr.illegal]
  exact List.forall_iff_forall_mem.mp all r h

theorem wellFormed_of_rsvdRow {k : Nat} {r : Word → Instr} (h : rsvdRows[k]? = some r) (w : Word) :
    (r w).wellFormed = lowestRsvd (4 + k) w := by
  have all : rsvdRows.map (fun r => (r w).wellFormed) = (List.range 28).map (fun k => lowestRsvd (4 + k) w) := rfl
  have here := congrArg (fun l => l[k]?) all
  have inside : k < 28 := (List.getElem?_eq_some_iff.mp h).1
  simpa [List.getElem?_map, h, inside] using here

/-- The word of a well-formed term is decoded to its row. -/
theorem decode_of_mem_rsvdRows {r : Word → Instr} {w : Word} (h : r ∈ rsvdRows) (hw : (r w).wellFormed = true) :
    decode w = r w := by
  obtain ⟨k, row⟩ := List.getElem?_of_mem h
  rw [wellFormed_of_rsvdRow row] at hw
  rcases decode_cases w with ⟨k', r', row', lowest, found⟩ | ⟨small, -⟩
  · obtain rfl := lowestRsvd_unique hw lowest
    rw [row] at row'
    cases row'
    exact found
  · exact absurd (le_toNat_of_lowestRsvd hw) (by omega)

/-! ### The opcode map -/

theorem encode_decodeOp (op : BitVec 4) : encode (decodeOp op) = op.setWidth 32 := by
  revert op; decide

theorem wellFormed_decodeOp (op : BitVec 4) : (decodeOp op).wellFormed = true := by
  revert op; decide

theorem setWidth_op_of_lt {w : Word} (h : w.toNat < 16) : (w.extractLsb' 0 4).setWidth 32 = w := by
  apply BitVec.eq_of_toNat_eq
  simp
  omega

/-! ### Decoder and encoder are inverse -/

/-- Settles O4: a legal word or a reserved opcode is looked up, a word of a reserved bit's row is found by its lowest
reserved bit. -/
theorem decodeInvertsEncode : Obligations.DecodeInvertsEncode := by
  intro i h
  cases i with
  | nop | clear | count | build | gencodes | serialize | encode | decode => rfl
  | reservedOp op => revert op; decide
  | _ w => exact decode_of_mem_rsvdRows (by simp [rsvdRows]) h

/-- Settles O5: a reserved bit's row carries the word, and the map of OP drops only bits that are 0. -/
theorem encodeInvertsDecode : Obligations.EncodeInvertsDecode := by
  intro w
  rcases decode_cases w with ⟨k, r, row, lowest, found⟩ | ⟨small, found⟩
  · rw [found]
    exact ⟨encode_of_mem_rsvdRows (List.mem_of_getElem? row) w, (wellFormed_of_rsvdRow row w).trans lowest⟩
  · rw [found]
    exact ⟨(encode_decodeOp _).trans (setWidth_op_of_lt small), wellFormed_decodeOp _⟩

theorem decode_eq_iff {w : Word} {i : Instr} (h : i.wellFormed = true) : decode w = i ↔ w = encode i :=
  ⟨fun decoded => decoded ▸ (encodeInvertsDecode w).1.symm, fun word => word ▸ decodeInvertsEncode i h⟩

/-- Settles O1: a well-formed instruction has one word. -/
theorem opcodeMapSelectsCommands : Obligations.OpcodeMapSelectsCommands := by
  refine ⟨fun w => ?_, fun op h => ?_⟩
  · exact ⟨decode_eq_iff (i := .nop) rfl, decode_eq_iff (i := .clear) rfl, decode_eq_iff (i := .count) rfl,
      decode_eq_iff (i := .build) rfl, decode_eq_iff (i := .gencodes) rfl, decode_eq_iff (i := .serialize) rfl,
      decode_eq_iff (i := .encode) rfl, decode_eq_iff (i := .decode) rfl⟩
  · exact decodeInvertsEncode (.reservedOp op) (decide_eq_true h)

/-- Settles O2: each word is the word of its row. -/
theorem tableWordsDecodeToTheirRows : Obligations.TableWordsDecodeToTheirRows :=
  ⟨decodeInvertsEncode .count rfl, decodeInvertsEncode .decode rfl, decodeInvertsEncode (.reservedOp 8) rfl,
    decodeInvertsEncode (.reservedOp 15) rfl, decodeInvertsEncode (.rsvdBit4 0x00000012) rfl,
    decodeInvertsEncode (.rsvdBit16 0x00010000) rfl, decodeInvertsEncode (.rsvdBit31 0x80000005) rfl,
    congrArg some (decodeInvertsEncode (.rsvdBit6 0x00000040) rfl), rfl⟩

/-! ### Legal words -/

theorem illegal_decodeOp (op : BitVec 4) : (decodeOp op).illegal = false ↔ op.toNat ≤ 7 := by
  revert op; decide

/-- The words above 7 are those with a reserved bit set and the reserved opcodes. -/
theorem illegal_decode_eq_false_iff (w : Word) : (decode w).illegal = false ↔ w.toNat ≤ 7 := by
  rcases decode_cases w with ⟨k, r, row, lowest, found⟩ | ⟨small, found⟩
  · have big := le_toNat_of_lowestRsvd lowest
    rw [found, illegal_of_mem_rsvdRows (List.mem_of_getElem? row) w]
    simp only [Bool.true_eq_false, false_iff]
    omega
  · have op : (w.extractLsb' 0 4).toNat = w.toNat := by simp; omega
    rw [found, illegal_decodeOp, op]

/-- Settles O3: an illegal word's instruction carries the word, which its error completion reports. -/
theorem exactlyEightWordsAreLegal : Obligations.ExactlyEightWordsAreLegal := by
  intro w
  refine ⟨illegal_decode_eq_false_iff w, fun big s => ?_⟩
  have illegal : (decode w).illegal = true := by
    rw [← Bool.not_eq_false, illegal_decode_eq_false_iff]
    omega
  rw [Machine.exec_illegal (decode w) s illegal, (encodeInvertsDecode w).1]
  rfl

end Sys2Proof
end

section
/-! The frame of every command (30_encoding.md R141; 60_exceptions.md R416). -/

namespace Sys2Proof.Machine

/-! ### What no command writes -/

/-- The fields no command writes: the parameters, CTRL, LAST_CMD, HAZ, IN_LEN, IBUF, and what the host and the response
port hold. -/
def State.hostSide (s : State) :
    Config × Bool × Word × Bool × Word × Memory × Option Word × List HostEvent × Nat :=
  (s.cfg, s.irqEn, s.lastCmd, s.haz, s.inLen, s.ibuf, s.rsp, s.pending, s.busyTurns)

/-- Wherever the body ends, with an error or without, these fields are as in `s`. -/
def Stage.KeepsHostSide (g : Stage) (s : State) : Prop := ∀ u : State, g.EndsIn u → u.hostSide = s.hostSide

theorem Stage.KeepsHostSide.andThen {g : Stage} {f : State → Stage} {s : State} (h : g.KeepsHostSide s)
    (hf : ∀ u : State, (f u).KeepsHostSide u) : (g.andThen f).KeepsHostSide s := by
  cases g with
  | ok u => exact fun v ended => (hf u v ended).trans (h u ((endsIn_ok ..).mpr rfl))
  | raised e u => exact h
  | stuck k => exact h

theorem countBody_keepsHostSide (s : State) : (countBody s).KeepsHostSide s := by
  intro u ended
  obtain rfl | ⟨tab, rfl⟩ := countBody_endsIn ended <;> rfl

theorem buildBody_keepsHostSide (s : State) : (buildBody s).KeepsHostSide s := by
  intro u ended
  obtain rfl | ⟨ns, r, rfl⟩ := buildFrom_endsIn ended <;> rfl

theorem gencodesBody_keepsHostSide (s : State) : (gencodesBody s).KeepsHostSide s := by
  intro u ended
  obtain rfl | ⟨cs, rfl⟩ := gencodesFrom_endsIn ended <;> rfl

theorem serializeBody_keepsHostSide (s : State) : (serializeBody s).KeepsHostSide s := by
  intro u ended
  obtain rfl | ⟨r, rfl⟩ := serializeBody_endsIn ended <;> rfl

theorem Stage.KeepsHostSide.encodeFailed {g : Stage} {s : State} (h : g.KeepsHostSide s) :
    g.encodeFailed.KeepsHostSide s := by
  cases g with
  | ok u => exact h
  | stuck k => exact h
  | raised e u =>
    intro v ended
    obtain rfl := (endsIn_raised ..).mp ended
    exact h u ((endsIn_raised ..).mpr rfl)

/-- ENCODE runs four bodies, and none writes these fields (R320). -/
theorem encodeBody_keepsHostSide (s : State) : (encodeBody s).KeepsHostSide s :=
  (((countBody_keepsHostSide s).andThen buildBody_keepsHostSide).andThen gencodesBody_keepsHostSide).andThen
    serializeBody_keepsHostSide |>.encodeFailed

/-! ### The completions -/

/-- `t` is `u` completed, with an error or without (R205, R415). -/
def CompletedFrom (u t : State) : Prop := t = complete u ∨ ∃ e, t = errorComplete e u

theorem finish_completedFrom {g : Stage} {t : State} (h : finish g = .next t) :
    ∃ u, g.EndsIn u ∧ CompletedFrom u t := by
  obtain ⟨u, ended, done⟩ | ⟨e, u, ended, done⟩ := finish_next h
  · exact ⟨u, .inl ended, .inl done⟩
  · exact ⟨u, .inr ⟨e, ended⟩, .inr ⟨e, done⟩⟩

/-- A completion without an error raised is the end of a body that raised none. -/
theorem finish_next_ok {g : Stage} {t : State} (h : finish g = .next t) (noErr : t.err = false) :
    ∃ u, g = .ok u ∧ t = complete u := by
  obtain ok | ⟨e, u, -, rfl⟩ := finish_next h
  · exact ok
  · cases noErr

/-! ### Bytes of OBUF behind OUT_LEN (R51) -/

theorem installStream_obuf_behind {s : State} {r : Stream} (short : r.bytes.length < 2 ^ 32) {b : Nat}
    (h : 4 * (installStream r s).outLen.toNat ≤ b) :
    (installStream r s).obuf.readByte b = s.obuf.readByte b := by
  rw [installStream_outLen, BitVec.toNat_ofNat, Nat.mod_eq_of_lt short] at h
  rw [installStream_obuf, readByte_writeWords_outside]
  simp only [List.length_map]
  omega

theorem installDecoded_obuf_behind {s : State} {d : Decoded} (short : d.text.length < 2 ^ 32) {b : Nat}
    (h : 4 * (installDecoded d s).outLen.toNat ≤ b) :
    (installDecoded d s).obuf.readByte b = s.obuf.readByte b := by
  have outLen : (installDecoded d s).outLen.toNat = d.text.length := Nat.mod_eq_of_lt short
  exact readByte_writeWords_outside s.obuf d.text (.inr (by omega))

theorem serializeBody_obuf_behind {s u : State} (hc : s.cfg.wf) (h : serializeBody s = .ok u) {b : Nat}
    (behind : 4 * u.outLen.toNat ≤ b) : u.obuf.readByte b = s.obuf.readByte b := by
  have ⟨_, _, ⟨_, outCap⟩, _⟩ := hc
  obtain ⟨-, body⟩ | ⟨-, -, body⟩ | ⟨-, -, -, body⟩ | ⟨-, -, -, -, body⟩ | ⟨t, e, -, -, -, -, -, body⟩ |
    ⟨t, r, -, -, -, -, stream, body⟩ := serializeBody_cases s <;> rw [body] at h <;> cases h
  have fits := serialize_fits stream
  exact installStream_obuf_behind (by omega) behind

theorem decodeFrom_obuf_behind {s u : State} (hc : s.cfg.wf) (h : decodeFrom s = .ok u) {b : Nat}
    (behind : 4 * u.outLen.toNat ≤ b) : u.obuf.readByte b = s.obuf.readByte b := by
  have ⟨_, _, ⟨_, outCap⟩, _⟩ := hc
  obtain ⟨-, body⟩ | ⟨e, -, -, body⟩ | ⟨d, -, decoded, body⟩ := decodeFrom_cases s <;> rw [body] at h <;> cases h
  obtain ⟨fits, -⟩ := decodeStream_ok hc decoded
  exact installDecoded_obuf_behind (by omega) behind

/-- The stages of ENCODE before SERIALIZE keep the parameters and OBUF. -/
theorem encodeBody_ok {s u : State} (h : encodeBody s = .ok u) :
    ∃ v : State, v.cfg = s.cfg ∧ v.obuf = s.obuf ∧ serializeBody v = .ok u := by
  have stages : (((countBody s).andThen buildBody).andThen gencodesBody).andThen serializeBody = .ok u := by
    unfold encodeBody at h
    generalize (((countBody s).andThen buildBody).andThen gencodesBody).andThen serializeBody = g at h
    cases g with
    | ok v => exact h
    | raised e v => cases h
    | stuck k => cases h
  obtain ⟨c, codes, serialized⟩ := andThen_eq_ok stages
  obtain ⟨b, built, gencodes⟩ := andThen_eq_ok codes
  obtain ⟨a, counted, build⟩ := andThen_eq_ok built
  have counted' : a.cfg = s.cfg ∧ a.obuf = s.obuf := by
    obtain rfl | ⟨tab, rfl⟩ := countBody_endsIn (.inl counted) <;> exact ⟨rfl, rfl⟩
  have built' : b.cfg = a.cfg ∧ b.obuf = a.obuf := by
    obtain rfl | ⟨ns, r, rfl⟩ := buildFrom_endsIn (.inl build) <;> exact ⟨rfl, rfl⟩
  have coded' : c.cfg = b.cfg ∧ c.obuf = b.obuf := by
    obtain rfl | ⟨cs, rfl⟩ := gencodesFrom_endsIn (.inl gencodes) <;> exact ⟨rfl, rfl⟩
  exact ⟨c, (coded'.1.trans built'.1).trans counted'.1, (coded'.2.trans built'.2).trans counted'.2, serialized⟩

/-! ### The frames -/

/-- A state that differs from `s` in none of the fields no command writes. -/
theorem eq_of_hostSide_eq {s t : State} (h : t.hostSide = s.hostSide) : t = { s with
    busy := t.busy, done := t.done, err := t.err, errCode := t.errCode, errArg0 := t.errArg0, errArg1 := t.errArg1,
    errArg2 := t.errArg2, draws := t.draws, freq := t.freq, freqN := t.freqN, node := t.node, nodeN := t.nodeN,
    root := t.root, code := t.code, codeN := t.codeN, treeValid := t.treeValid, codesValid := t.codesValid,
    obuf := t.obuf, outLen := t.outLen, treeBits := t.treeBits, payloadBits := t.payloadBits,
    stopPos := t.stopPos } := by
  simp only [State.hostSide, Prod.mk.injEq] at h
  obtain ⟨cfg, irqEn, lastCmd, haz, inLen, ibuf, rsp, pending, busyTurns⟩ := h
  rw [← cfg, ← irqEn, ← lastCmd, ← haz, ← inLen, ← ibuf, ← rsp, ← pending, ← busyTurns]

theorem CompletedFrom.hostSide_eq {u t : State} (h : CompletedFrom u t) : t.hostSide = u.hostSide := by
  obtain rfl | ⟨e, rfl⟩ := h <;> rfl

/-- Settles O48: a body ends in one of its own updates, and an output written whole leaves the bytes behind OUT_LEN. -/
theorem commandsChangeOnlyTheirResults : Obligations.CommandsChangeOnlyTheirResults := by
  refine ⟨fun s t h => ?_, fun s t h => ?_, fun s t h => ?_, fun s t h => ?_, fun s t h => ?_, fun s t h => ?_,
    fun s t h => ?_, fun s t h => ?_, fun i s t illegal h => ?_, fun i s t hc hi h _ noErr b behind => ?_⟩
  · cases h; rfl
  · cases h; rfl
  · obtain ⟨u, ended, rfl | ⟨e, rfl⟩⟩ := finish_completedFrom h <;>
      obtain rfl | ⟨tab, rfl⟩ := countBody_endsIn ended <;>
      simp only [complete, errorComplete, countFailed, scramble, State.setWin, installFreq]
  · obtain ⟨u, ended, rfl | ⟨e, rfl⟩⟩ := finish_completedFrom h <;>
      obtain rfl | ⟨ns, r, rfl⟩ := buildFrom_endsIn ended <;>
      simp only [complete, errorComplete, clearTree, buildFailed, scramble, State.setWin, installTree]
  · obtain ⟨u, ended, rfl | ⟨e, rfl⟩⟩ := finish_completedFrom h <;>
      obtain rfl | ⟨cs, rfl⟩ := gencodesFrom_endsIn ended <;>
      simp only [complete, errorComplete, clearCodes, gencodesFailed, scramble, State.setWin, installCodes]
  · obtain ⟨u, ended, rfl | ⟨e, rfl⟩⟩ := finish_completedFrom h <;>
      obtain rfl | ⟨r, rfl⟩ := serializeBody_endsIn ended <;>
      simp only [complete, errorComplete, clearOut, outputFailed, scramble, State.setWin, installStream]
  · obtain ⟨u, ended, done⟩ := finish_completedFrom h
    exact eq_of_hostSide_eq (done.hostSide_eq.trans (encodeBody_keepsHostSide s u ended))
  · obtain ⟨u, ended, rfl | ⟨e, rfl⟩⟩ := finish_completedFrom h <;>
      obtain rfl | ⟨d, rfl⟩ := decodeFrom_endsIn ended <;>
      simp only [complete, errorComplete, clearTree, clearOut, outputFailed, decodeFailed, scramble, State.setWin,
        installTree, installDecoded]
  · rw [exec_illegal i s illegal] at h
    cases h; rfl
  · simp only [List.mem_cons, List.not_mem_nil, or_false] at hi
    obtain rfl | rfl | rfl := hi
    · obtain ⟨u, body, rfl⟩ := finish_next_ok h noErr
      exact serializeBody_obuf_behind hc body behind
    · obtain ⟨u, body, rfl⟩ := finish_next_ok h noErr
      obtain ⟨v, cfg, obuf, serialized⟩ := encodeBody_ok body
      rw [← obuf]
      exact serializeBody_obuf_behind (cfg ▸ hc) serialized behind
    · obtain ⟨u, body, rfl⟩ := finish_next_ok h noErr
      exact decodeFrom_obuf_behind (s := clearTree s) hc body behind

end Sys2Proof.Machine
end

section
/-! The bits of a stream, and one node of its tree region (20_memory.md R100, R101; 45_decoder.md R352, R355, R356). -/

namespace Sys2Proof.Machine

/-! ### Bits at a position -/

/-- The stream's bits from position `p` on are `bs`. -/
def ReadsAt (bit : Nat → Bool) : Nat → List Bool → Prop
  | _, [] => True
  | p, b :: bs => bit p = b ∧ ReadsAt bit (p + 1) bs

theorem readsAt_append {bit : Nat → Bool} {p : Nat} {as bs : List Bool} :
    ReadsAt bit p (as ++ bs) ↔ ReadsAt bit p as ∧ ReadsAt bit (p + as.length) bs := by
  induction as generalizing p with
  | nil => simp [ReadsAt]
  | cons a as ih => simp [ReadsAt, ih, and_assoc, Nat.add_assoc, Nat.add_comm 1]

theorem readsAt_iff {bit : Nat → Bool} {p : Nat} {bs : List Bool} :
    ReadsAt bit p bs ↔ (List.range bs.length).map (fun j => bit (p + j)) = bs := by
  induction bs generalizing p with
  | nil => simp [ReadsAt]
  | cons b bs ih =>
    rw [ReadsAt, ih, List.length_cons, List.range_succ_eq_map]
    simp [Function.comp_def, Nat.add_assoc, Nat.add_comm 1]

theorem readsAt_bits (bit : Nat → Bool) (p k : Nat) :
    ReadsAt bit p ((List.range k).map fun j => bit (p + j)) := readsAt_iff.mpr (by simp)

/-! ### The number of a bit string (R352) -/

/-- The number a bit string stands for, first bit most significant. -/
def bitsValue (bs : List Bool) : Nat := bs.foldl (fun v b => 2 * v + b.toNat) 0

theorem bitsValue_concat (bs : List Bool) (b : Bool) : bitsValue (bs ++ [b]) = Nat.bit b (bitsValue bs) := by
  simp [bitsValue, Nat.bit_val]

theorem testBit_bitsValue (bs : List Bool) (i : Nat) :
    (bitsValue bs).testBit i = (bs.reverse[i]?).getD false := by
  induction bs using List.reverseRecOn generalizing i with
  | nil => simp [bitsValue]
  | append_singleton bs b ih =>
    rw [bitsValue_concat]
    cases i with
    | zero => simp
    | succ i => simp [Nat.testBit_bit_succ, ih]

theorem length_wordBits (w : Word) : (wordBits w).length = 32 := by simp [wordBits]

/-- 32 bits are the bits of the character they stand for. -/
theorem wordBits_bitsValue {bs : List Bool} (h : bs.length = 32) : wordBits (BitVec.ofNat 32 (bitsValue bs)) = bs := by
  apply List.ext_getElem
  · rw [length_wordBits, h]
  · intro i h1 h2
    have back : bs.reverse[31 - i]? = some bs[i] := by
      rw [List.getElem?_reverse (by omega), h, show 32 - 1 - (31 - i) = i by omega, List.getElem?_eq_getElem h2]
    have inside : 31 - i < 32 := by omega
    simp [wordBits, BitVec.getLsbD_ofNat, testBit_bitsValue, back, inside]

theorem wordBits_injective {v w : Word} (h : wordBits v = wordBits w) : v = w := by
  refine BitVec.eq_of_getLsbD_eq fun i hi => ?_
  have here := congrArg (fun l => l[31 - i]?) h
  have inside : 31 - i < 32 := by omega
  simpa [wordBits, inside, show 31 - (31 - i) = i by omega] using here

theorem ofNat_bitsValue_wordBits (w : Word) : BitVec.ofNat 32 (bitsValue (wordBits w)) = w :=
  wordBits_injective (wordBits_bitsValue (length_wordBits w))

/-! ### Reading (R352) -/

theorem readBits_of_readsAt {nb : Nat} {bit : Nat → Bool} {p : Nat} {bs : List Bool} (room : p + bs.length ≤ nb)
    (h : ReadsAt bit p bs) : readBits nb bit bs.length p = .ok (bitsValue bs, p + bs.length) := by
  rw [readBits, if_neg (Nat.not_lt_of_le room), ← List.foldl_map (f := fun j => bit (p + j))
    (g := fun v b => 2 * v + b.toNat), readsAt_iff.mp h, bitsValue]

theorem readBits_ok {nb : Nat} {bit : Nat → Bool} {k p v p' : Nat} (h : readBits nb bit k p = .ok (v, p')) :
    ∃ bs, bs.length = k ∧ p + k ≤ nb ∧ ReadsAt bit p bs ∧ v = bitsValue bs ∧ p' = p + k := by
  have room : p + k ≤ nb := by
    by_contra short
    rw [readBits, if_pos (Nat.lt_of_not_le short)] at h
    cases h
  have value := readBits_of_readsAt (nb := nb) (by simpa using room) (readsAt_bits bit p k)
  simp only [List.length_map, List.length_range, h] at value
  cases value
  exact ⟨_, by simp, room, readsAt_bits bit p k, rfl, rfl⟩

/-- The bits at position `p` are one node of a tree region: whole, and a Leaf's character valid. -/
def NodeAt (nb : Nat) (bit : Nat → Bool) (p : Nat) (x : Option Word) : Prop :=
  p + (nodeBits x).length ≤ nb ∧ ReadsAt bit p (nodeBits x) ∧ ∀ c, x = some c → validCodePoint c = true

theorem readSym_of_readsAt {nb : Nat} {bit : Nat → Bool} {p : Nat} {c : Word} (room : p + 32 ≤ nb)
    (h : ReadsAt bit p (wordBits c)) (valid : validCodePoint c = true) : readSym nb bit p = .ok (c, p + 32) := by
  have read := readBits_of_readsAt (nb := nb) (by rwa [length_wordBits]) h
  rw [length_wordBits] at read
  simp [readSym, read, ofNat_bitsValue_wordBits, valid]

theorem readSym_ok {nb : Nat} {bit : Nat → Bool} {p p' : Nat} {c : Word} (h : readSym nb bit p = .ok (c, p')) :
    p + 32 ≤ nb ∧ ReadsAt bit p (wordBits c) ∧ validCodePoint c = true ∧ p' = p + 32 := by
  unfold readSym at h
  split at h
  case h_1 => cases h
  case h_2 v q read =>
    obtain ⟨bs, length, room, reads, rfl, rfl⟩ := readBits_ok read
    split at h
    case isTrue => cases h
    case isFalse valid =>
      cases h
      exact ⟨room, by rwa [wordBits_bitsValue length], by simpa using valid, rfl⟩

/-- The node as Phase 1 first writes it: an Internal node's children are still to come (R355, R356). -/
def freshNode : Option Word → Node
  | none => .internal NIL NIL 0
  | some c => .leaf c 0

theorem readNode_of_nodeAt {nb : Nat} {bit : Nat → Bool} {cap : Nat} {c : DecCursor} {x : Option Word}
    (room : c.nodes.length < cap) (h : NodeAt nb bit c.pos x) :
    readNode nb bit cap c = .ok (x.isSome, ⟨c.pos + (nodeBits x).length, c.nodes ++ [freshNode x]⟩) := by
  obtain ⟨fits, reads, valid⟩ := h
  have more : ¬c.nodes.length = cap := Nat.ne_of_lt room
  cases x with
  | none =>
    have tag := readBits_of_readsAt (bs := [false]) fits reads
    rw [readNode, show 1 = [false].length from rfl, tag]
    simp [more, bitsValue, freshNode]
  | some x =>
    obtain ⟨one, sym⟩ := reads
    rw [nodeBits_some, List.length_cons, length_wordBits] at fits
    have tag := readBits_of_readsAt (nb := nb) (bs := [true]) (by simp; omega) ⟨one, trivial⟩
    have char := readSym_of_readsAt (nb := nb) (by omega) sym (valid x rfl)
    rw [readNode, show 1 = [true].length from rfl, tag]
    simp [more, bitsValue, freshNode, char, length_wordBits, Nat.add_assoc]

theorem nodeAt_of_readNode {nb : Nat} {bit : Nat → Bool} {cap : Nat} {c c' : DecCursor} {isLeaf : Bool}
    (h : readNode nb bit cap c = .ok (isLeaf, c')) : c.nodes.length ≠ cap ∧ ∃ x, NodeAt nb bit c.pos x := by
  unfold readNode at h
  split at h
  case h_1 => cases h
  case h_2 b q read =>
    obtain ⟨bs, length, fits, reads, rfl, rfl⟩ := readBits_ok read
    obtain ⟨tag, rfl⟩ := List.length_eq_one_iff.mp length
    split at h
    case isTrue => cases h
    case isFalse room =>
      refine ⟨room, ?_⟩
      cases tag with
      | false => exact ⟨none, fits, reads, by simp⟩
      | true =>
        rw [if_neg (by decide)] at h
        split at h
        case h_1 => cases h
        case h_2 x q' sym =>
          obtain ⟨fits, chars, valid, -⟩ := readSym_ok sym
          refine ⟨some x, ?_, ⟨reads.1, chars⟩, by simpa using valid⟩
          rw [nodeBits_some, List.length_cons, length_wordBits]
          omega

end Sys2Proof.Machine
end

section
/-! Phase 1 of DECODE reads exactly the tree regions (30_encoding.md R151, R158; 45_decoder.md R353 to R357). -/

namespace Sys2Proof.Machine

/-! ### A tree in the stream -/

/-- The number of nodes. -/
def Tree.size : Tree → Nat
  | .leaf _ => 1
  | .node l r => l.size + r.size + 1

theorem Tree.size_succ (t : Tree) : t.size + 1 = 2 * t.leaves := by
  induction t with
  | leaf c => rfl
  | node l r ihl ihr => simp only [Tree.size, Tree.leaves]; omega

theorem Tree.size_pos (t : Tree) : 0 < t.size := by
  cases t <;> simp only [Tree.size] <;> omega

theorem Tree.size_le_length_bits (t : Tree) : t.size ≤ t.bits.length := by
  induction t with
  | leaf c => simp [Tree.size, Tree.bits]
  | node l r ihl ihr => simp only [Tree.size, Tree.bits, List.length_cons, List.length_append]; omega

/-- The Internal node of index `j`, its left subtree of `k` nodes behind it and its right one behind that. -/
def preorderRoot (j k : Nat) : Node := .internal (BitVec.ofNat 32 (j + 1)) (BitVec.ofNat 32 (j + 1 + k)) 0

/-- The nodes of a tree in preorder, the root having index `j`, with weights 0 (R354, R362). -/
def Tree.nodesFrom (j : Nat) : Tree → List Node
  | .leaf c => [.leaf c 0]
  | .node l r => preorderRoot j l.size :: (l.nodesFrom (j + 1) ++ r.nodesFrom (j + 1 + l.size))

@[simp] theorem Tree.length_nodesFrom (t : Tree) (j : Nat) : (t.nodesFrom j).length = t.size := by
  induction t generalizing j with
  | leaf c => rfl
  | node l r ihl ihr => simp [Tree.nodesFrom, Tree.size, ihl, ihr]

/-- The stream holds the tree from bit `p` on, and the node memory has room for it behind `n` nodes. -/
def Tree.StandsAt (nb : Nat) (bit : Nat → Bool) (cap : Nat) : Nat → Nat → Tree → Prop
  | p, n, .leaf c => n < cap ∧ NodeAt nb bit p (some c)
  | p, n, .node l r => n < cap ∧ NodeAt nb bit p none ∧ l.StandsAt nb bit cap (p + 1) (n + 1) ∧
      r.StandsAt nb bit cap (p + 1 + l.bits.length) (n + 1 + l.size)

theorem Tree.standsAt_iff {nb : Nat} {bit : Nat → Bool} {cap p n : Nat} {t : Tree} :
    t.StandsAt nb bit cap p n ↔ (∀ c ∈ t.syms, validCodePoint c = true) ∧ n + t.size ≤ cap ∧
      p + t.bits.length ≤ nb ∧ ReadsAt bit p t.bits := by
  induction t generalizing p n with
  | leaf c =>
    simp only [StandsAt, NodeAt, Tree.syms, Tree.size, Tree.bits, nodeBits_some, List.mem_singleton, forall_eq,
      Option.some.injEq, forall_eq']
    exact ⟨fun ⟨room, fits, reads, valid⟩ => ⟨valid, room, fits, reads⟩,
      fun ⟨valid, room, fits, reads⟩ => ⟨room, fits, reads, valid⟩⟩
  | node l r ihl ihr =>
    have root : NodeAt nb bit p none ↔ p + 1 ≤ nb ∧ bit p = false := by simp [NodeAt, ReadsAt]
    simp only [StandsAt, root, ihl, ihr, Tree.syms, Tree.size, Tree.bits, List.mem_append, or_imp, forall_and,
      List.length_cons, List.length_append, ReadsAt, readsAt_append]
    constructor
    · rintro ⟨-, ⟨-, tag⟩, ⟨validL, -, -, bitsL⟩, validR, size, length, bitsR⟩
      exact ⟨⟨validL, validR⟩, by omega, by omega, tag, bitsL, bitsR⟩
    · rintro ⟨⟨validL, validR⟩, size, length, tag, bitsL, bitsR⟩
      exact ⟨by omega, ⟨by omega, tag⟩, ⟨validL, by omega, by omega, bitsL⟩, validR, by omega, by omega, bitsR⟩

theorem treeRegionOf_iff {c : Config} {m : Memory} {n : Nat} {t : Tree} :
    TreeRegionOf c m n t ↔ t.StandsAt (8 * n) (streamBit m) c.nodeCap 0 0 := by
  have size := t.size_succ
  rw [Tree.standsAt_iff, TreeRegionOf, readsAt_iff]
  simp only [Nat.zero_add]
  rw [show 2 * t.leaves - 1 = t.size by omega]

/-! ### Attaching (R354) -/

theorem attach_append {nodes : List Node} {p : Nat} (hp : p < nodes.length) (ns : List Node) (j : Nat) :
    attach (nodes ++ ns) p j = ((attach nodes p j).1 ++ ns, (attach nodes p j).2) := by
  have here : (nodes ++ ns)[p]? = nodes[p]? := List.getElem?_append_left hp
  cases found : nodes[p]? with
  | none => exact absurd found (by simp [hp])
  | some n =>
    cases n with
    | empty | leaf => simp [attach, here, found]
    | internal a b w =>
      rw [found] at here
      by_cases left : a = NIL
      · subst left
        rw [attach_left j here, attach_left j found, List.set_append_left _ _ hp]
      · rw [attach_right j here left, attach_right j found left, List.set_append_left _ _ hp]

theorem length_attach (nodes : List Node) (p j : Nat) : (attach nodes p j).1.length = nodes.length := by
  unfold attach
  split
  case h_1 => split <;> simp
  case h_2 => rfl

theorem attach_left_of_append {as : List Node} (bs : List Node) {p : Nat} (hp : as.length = p) (b : Word) (w : DWord)
    (j : Nat) :
    attach (as ++ .internal NIL b w :: bs) p j = (as ++ .internal (BitVec.ofNat 32 j) b w :: bs, false) := by
  subst hp
  rw [attach_left (b := b) (w := w) j (by simp)]
  simp

theorem attach_right_of_append {as : List Node} (bs : List Node) {p : Nat} (hp : as.length = p) {a : Word}
    (ha : a ≠ NIL) (b : Word) (w : DWord) (j : Nat) :
    attach (as ++ .internal a b w :: bs) p j = (as ++ .internal a (BitVec.ofNat 32 j) w :: bs, true) := by
  subst hp
  rw [attach_right (b := b) (w := w) j (by simp) ha]
  simp

/-! ### Phase 1 fills a slot with the tree that stands in the stream -/

theorem fillSlots_nil (nb : Nat) (bit : Nat → Bool) (cap fuel : Nat) (c : DecCursor) :
    fillSlots nb bit cap fuel c [] = .ok c := by
  cases fuel <;> rfl

section Phase1
variable {nb : Nat} {bit : Nat → Bool} {cap : Nat}

/-- The stack once the open slot of `p` has taken node `j`. -/
def stackBelow (nodes : List Node) (p j : Nat) (stack : List Nat) : List Nat :=
  if (attach nodes p j).2 then stack else p :: stack

theorem fillSlots_of_nodeAt {fuel p : Nat} {c : DecCursor} {x : Option Word} {stack : List Nat}
    (hp : p < c.nodes.length) (room : c.nodes.length < cap) (h : NodeAt nb bit c.pos x) :
    fillSlots nb bit cap (fuel + 1) c (p :: stack) =
      fillSlots nb bit cap fuel
        ⟨c.pos + (nodeBits x).length, (attach c.nodes p c.nodes.length).1 ++ [freshNode x]⟩
        (pushOpen x.isSome c.nodes.length (stackBelow c.nodes p c.nodes.length stack)) := by
  rw [fillSlots, readNode_of_nodeAt room h]
  simp only [attach_append hp]
  rfl

/-- The tree fills the slot on top of the stack, from whatever cursor it stands at. -/
def Tree.FillsSlot (nb : Nat) (bit : Nat → Bool) (cap : Nat) (t : Tree) : Prop :=
  ∀ (fuel p : Nat) (c : DecCursor) (stack : List Nat), p < c.nodes.length →
    t.StandsAt nb bit cap c.pos c.nodes.length →
    fillSlots nb bit cap (t.size + fuel) c (p :: stack) =
      fillSlots nb bit cap fuel
        ⟨c.pos + t.bits.length, (attach c.nodes p c.nodes.length).1 ++ t.nodesFrom c.nodes.length⟩
        (stackBelow c.nodes p c.nodes.length stack)

/-- The left child of a fresh Internal node `j` fills its left slot; the node keeps the other. -/
theorem fillSlots_left_child {l : Tree} (hl : l.FillsSlot nb bit cap) (fuel : Nat) {p j : Nat} {nodes : List Node}
    (below : List Nat) (hj : nodes.length = j) (left : l.StandsAt nb bit cap (p + 1) (j + 1)) :
    fillSlots nb bit cap (l.size + fuel) ⟨p + 1, nodes ++ [freshNode none]⟩ (j :: below) =
      fillSlots nb bit cap fuel ⟨p + 1 + l.bits.length,
        nodes ++ .internal (BitVec.ofNat 32 (j + 1)) NIL 0 :: l.nodesFrom (j + 1)⟩ (j :: below) := by
  rw [hl _ j ⟨p + 1, nodes ++ [freshNode none]⟩ _ (by simp; omega) (by simpa [hj] using left)]
  simp [hj, freshNode, stackBelow, attach_left_of_append [] hj]

/-- The children of a fresh Internal node fill its two slots. -/
theorem fillSlots_children {l r : Tree} (small : cap < 2 ^ 32) (hl : l.FillsSlot nb bit cap)
    (hr : r.FillsSlot nb bit cap) (fuel : Nat) {p j : Nat} {nodes : List Node} (below : List Nat)
    (hj : nodes.length = j) (h : (Tree.node l r).StandsAt nb bit cap p j) :
    fillSlots nb bit cap (l.size + (r.size + fuel)) ⟨p + 1, nodes ++ [freshNode none]⟩ (j :: below) =
      fillSlots nb bit cap fuel ⟨p + (Tree.node l r).bits.length, nodes ++ (Tree.node l r).nodesFrom j⟩ below := by
  have ⟨_, fits, _⟩ := Tree.standsAt_iff.mp h
  have one := r.size_pos
  obtain ⟨-, -, left, right⟩ := h
  simp only [Tree.size] at fits
  have notNil : BitVec.ofNat 32 (j + 1) ≠ NIL := ofNat_ne_NIL (by omega)
  rw [fillSlots_left_child hl _ below hj left,
    hr _ j _ _ (by simp; omega) (by simpa [hj, Nat.add_assoc, Nat.add_comm 1] using right)]
  simp only [List.length_append, List.length_cons, Tree.length_nodesFrom, hj, stackBelow,
    attach_right_of_append _ hj notNil, if_true, Tree.bits, Tree.nodesFrom, preorderRoot, List.append_assoc,
    List.cons_append]
  rw [show j + (l.size + 1) = j + 1 + l.size by omega,
    show p + 1 + l.bits.length + r.bits.length = p + (l.bits.length + r.bits.length + 1) by omega]

theorem Tree.fillsSlot (small : cap < 2 ^ 32) (t : Tree) : t.FillsSlot nb bit cap := by
  induction t with
  | leaf c =>
    intro fuel p cur stack hp ⟨room, here⟩
    rw [Tree.size, Nat.add_comm, fillSlots_of_nodeAt hp room here]
    rfl
  | node l r hl hr =>
    intro fuel p cur stack hp stands
    have ⟨room, here, _⟩ := stands
    rw [show (Tree.node l r).size + fuel = l.size + (r.size + fuel) + 1 by simp only [Tree.size]; omega,
      fillSlots_of_nodeAt hp room here]
    exact fillSlots_children small hl hr fuel _ (length_attach _ _ _) stands

/-! ### Phase 1 has no other way to end without an error -/

/-- With a slot open and `fuel` rounds to go, a tree of at most so many nodes stands at the cursor, or Phase 1 raises. -/
def TreeOrError (nb : Nat) (bit : Nat → Bool) (cap fuel : Nat) : Prop :=
  ∀ (p : Nat) (c : DecCursor) (stack : List Nat), p < c.nodes.length → c.nodes.length ≤ cap →
    (∃ t : Tree, t.size ≤ fuel ∧ t.StandsAt nb bit cap c.pos c.nodes.length) ∨
      ∃ e, fillSlots nb bit cap fuel c (p :: stack) = .error e

/-- The same for the two slots of a fresh Internal node. -/
theorem node_standsAt_or_error {fuel p j : Nat} {nodes : List Node} (small : cap < 2 ^ 32)
    (h : ∀ k ≤ fuel, TreeOrError nb bit cap k) (below : List Nat) (hj : nodes.length = j) (room : j < cap)
    (here : NodeAt nb bit p none) :
    (∃ l r : Tree, l.size + r.size ≤ fuel ∧ (Tree.node l r).StandsAt nb bit cap p j) ∨
      ∃ e, fillSlots nb bit cap fuel ⟨p + 1, nodes ++ [freshNode none]⟩ (j :: below) = .error e := by
  have length : (nodes ++ [freshNode none]).length = j + 1 := by simp [hj]
  rcases h fuel (Nat.le_refl fuel) j ⟨p + 1, nodes ++ [freshNode none]⟩ below (by simp [hj]) (by simp only; omega) with
    ⟨l, few, left⟩ | raised
  · rw [length] at left
    obtain ⟨rest, rfl⟩ := Nat.exists_eq_add_of_le few
    have ⟨_, fits, _⟩ := Tree.standsAt_iff.mp left
    rw [fillSlots_left_child (l.fillsSlot small) rest below hj left]
    refine (h rest (Nat.le_add_left _ _) j _ below ?_ ?_).imp_left fun ⟨r, few, right⟩ => ?_
    · simp [hj]
    · simp [hj]; omega
    · refine ⟨l, r, Nat.add_le_add_left few _, room, here, left, ?_⟩
      simpa [hj, Nat.add_assoc, Nat.add_comm 1] using right
  · exact .inr raised

theorem treeOrError (small : cap < 2 ^ 32) (fuel : Nat) : TreeOrError nb bit cap fuel := by
  induction fuel using Nat.strong_induction_on with
  | _ fuel ih =>
  intro p c stack hp fit
  cases fuel with
  | zero => exact .inr ⟨_, rfl⟩
  | succ fuel =>
    cases read : readNode nb bit cap c with
    | error e => exact .inr ⟨e, by rw [fillSlots, read]⟩
    | ok found =>
      obtain ⟨notFull, x, here⟩ := nodeAt_of_readNode read
      have room : c.nodes.length < cap := by omega
      cases x with
      | some x => exact .inl ⟨.leaf x, by simp [Tree.size], room, here⟩
      | none =>
        rw [fillSlots_of_nodeAt hp room here]
        exact (node_standsAt_or_error small (fun k hk => ih k (by omega)) _ (length_attach _ _ _) room here).imp_left
          fun ⟨l, r, few, stands⟩ => ⟨.node l r, by simp only [Tree.size]; omega, stands⟩

/-- On a tree region Phase 1 succeeds, and numbers the tree's nodes in preorder (R362). -/
theorem readTreeRegion_of_standsAt {t : Tree} (small : cap < 2 ^ 32) (stands : t.StandsAt nb bit cap 0 0) :
    readTreeRegion nb bit cap = .ok ⟨t.bits.length, t.nodesFrom 0⟩ := by
  have ⟨_, _, fits, _⟩ := Tree.standsAt_iff.mp stands
  cases t with
  | leaf x =>
    have ⟨room, here⟩ := stands
    rw [readTreeRegion, readNode_of_nodeAt (c := ⟨0, []⟩) room here]
    exact (fillSlots_nil ..).trans (by simp [Tree.bits, Tree.nodesFrom, freshNode])
  | node l r =>
    have ⟨room, here, _⟩ := stands
    have few := (Tree.node l r).size_le_length_bits
    simp only [Tree.size] at few
    obtain ⟨rest, fuel⟩ := Nat.exists_eq_add_of_le (show l.size + r.size ≤ nb by omega)
    have filled := fillSlots_children (nodes := []) small (l.fillsSlot small) (r.fillsSlot small) rest [] rfl stands
    rw [← Nat.add_assoc, ← fuel, fillSlots_nil] at filled
    rw [readTreeRegion, readNode_of_nodeAt (c := ⟨0, []⟩) room here]
    simpa using filled

theorem exists_standsAt_of_readTreeRegion {c : DecCursor} (small : cap < 2 ^ 32)
    (ok : readTreeRegion nb bit cap = .ok c) : ∃ t : Tree, t.StandsAt nb bit cap 0 0 := by
  cases read : readNode nb bit cap ⟨0, []⟩ with
  | error e => rw [readTreeRegion, read] at ok; cases ok
  | ok found =>
    obtain ⟨notFull, x, here⟩ := nodeAt_of_readNode read
    have room : 0 < cap := Nat.pos_of_ne_zero (Ne.symm notFull)
    cases x with
    | some x => exact ⟨.leaf x, room, here⟩
    | none =>
      rw [readTreeRegion, readNode_of_nodeAt (c := ⟨0, []⟩) room here] at ok
      obtain ⟨l, r, -, stands⟩ | ⟨e, raised⟩ :=
        node_standsAt_or_error (nodes := []) small (fun k _ => treeOrError small k) [] rfl room here
      · exact ⟨.node l r, stands⟩
      · exact absurd (ok.symm.trans raised) (by simp)

/-- Phase 1 succeeds exactly on the tree regions. -/
theorem readTreeRegion_eq_ok_iff (small : cap < 2 ^ 32) {c : DecCursor} :
    readTreeRegion nb bit cap = .ok c ↔
      ∃ t : Tree, t.StandsAt nb bit cap 0 0 ∧ c = ⟨t.bits.length, t.nodesFrom 0⟩ := by
  refine ⟨fun ok => ?_, fun ⟨t, stands, cursor⟩ => cursor ▸ readTreeRegion_of_standsAt small stands⟩
  obtain ⟨t, stands⟩ := exists_standsAt_of_readTreeRegion small ok
  rw [readTreeRegion_of_standsAt small stands] at ok
  exact ⟨t, stands, by cases ok; rfl⟩

end Phase1

/-! ### The nodes hold the tree -/

/-- The nodes of a tree, wherever they stand in a list, hold the tree. -/
theorem Tree.holdsTree_nodesFrom (t : Tree) {j : Nat} (as bs : List Node) (hj : as.length = j)
    (small : j + t.size < 2 ^ 32) : HoldsTree (as ++ t.nodesFrom j ++ bs) j t (List.range' j t.size) := by
  induction t generalizing j as bs with
  | leaf c => exact .leaf (w := 0) (by subst hj; simp [Tree.nodesFrom])
  | node l r ihl ihr =>
    simp only [Tree.size] at small
    have left := ihl (j := j + 1) (as ++ [preorderRoot j l.size]) (r.nodesFrom (j + 1 + l.size) ++ bs) (by simp [hj])
      (by omega)
    have right := ihr (j := j + 1 + l.size) (as ++ [preorderRoot j l.size] ++ l.nodesFrom (j + 1)) bs
      (by simp [hj]; omega) (by omega)
    have shape : as ++ (Tree.node l r).nodesFrom j ++ bs =
        as ++ [preorderRoot j l.size] ++ l.nodesFrom (j + 1) ++ (r.nodesFrom (j + 1 + l.size) ++ bs) := by
      simp [Tree.nodesFrom]
    rw [← shape] at left
    rw [List.append_assoc _ _ bs, ← shape] at right
    rw [Tree.size, List.range'_succ, ← List.range'_append_1]
    refine .internal (w := 0) (a := BitVec.ofNat 32 (j + 1)) (b := BitVec.ofNat 32 (j + 1 + l.size)) ?_ ?_ ?_
    · rw [shape]; subst hj; simp [preorderRoot]
    · rw [BitVec.toNat_ofNat, Nat.mod_eq_of_lt (by omega)]; exact left
    · rw [BitVec.toNat_ofNat, Nat.mod_eq_of_lt (by omega)]; exact right

end Sys2Proof.Machine
end

section
/-! Phases 2 and 3 of DECODE, and the streams DECODE accepts (30_encoding.md R153, R158; 45_decoder.md R358 to R361). -/

namespace Sys2Proof.Machine

/-! ### Phase 2 (R358) -/

theorem stopPosition_eq_ok_iff {nb t low3 stop : Nat} :
    stopPosition nb t low3 = .ok stop ↔ t + 3 ≤ nb ∧ t ≤ nb - 10 + low3 ∧ stop = nb - 10 + low3 := by
  unfold stopPosition
  split
  case isTrue short => simp; omega
  case isFalse long =>
    split
    case isTrue inside => simp; omega
    case isFalse behind => simp; omega

/-! ### Words of a tree (R291, R292) -/

theorem spellsText_nil (t : Tree) : SpellsText t [] [] := ⟨[], rfl, rfl⟩

theorem SpellsText.cons {t : Tree} {code bs : List Bool} {c : Word} {text : List Word} (hc : t.wordOf code = some c)
    (h : SpellsText t bs text) : SpellsText t (code ++ bs) (c :: text) := by
  obtain ⟨codes, bits, words⟩ := h
  exact ⟨code :: codes, by simp [bits], by simp [hc, words]⟩

@[simp] theorem wordOf_nil (t : Tree) : t.wordOf [] = none := by cases t <;> rfl

theorem follow_node_cons (l r : Tree) (b : Bool) (bs : List Bool) :
    (Tree.node l r).follow (b :: bs) = (if b then r else l).follow bs := by
  cases b <;> rfl

/-! ### One step of a walk (R359) -/

theorem emitChar_of_lt {cap : Nat} {out : List Word} (room : out.length < cap) (c : Word) :
    emitChar cap c out = .ok (out ++ [c]) := by
  rw [emitChar, if_neg (Nat.ne_of_lt room)]

theorem emitChar_of_full {cap : Nat} {out : List Word} (full : out.length = cap) (c : Word) :
    emitChar cap c out = .error (.capacity 4 (out.length + 1) cap) := by
  rw [emitChar, if_pos full]

section Walk
variable {ns : List Node} {cap stop : Nat}

theorem decodeWalk_to_leaf {x : Nat} {a b : Word} {w v : DWord} {c : Word} (here : ns[x]? = some (.internal a b w))
    (d : Bool) (child : ns[if d then b.toNat else a.toNat]? = some (.leaf c v)) (bs : List Bool) (out : List Word) :
    decodeWalk ns cap stop (d :: bs) x out = emitChar cap c out >>= decodeWalk ns cap stop bs 0 := by
  rw [decodeWalk]
  simp only [List.getD_eq_getElem?_getD, here, child, Option.getD_some]
  cases emitChar cap c out <;> rfl

theorem decodeWalk_to_internal {x : Nat} {a b a' b' : Word} {w v : DWord} (here : ns[x]? = some (.internal a b w))
    (d : Bool) (child : ns[if d then b.toNat else a.toNat]? = some (.internal a' b' v)) (bs : List Bool)
    (out : List Word) :
    decodeWalk ns cap stop (d :: bs) x out =
      decodeWalk ns cap stop bs (if d then b.toNat else a.toNat) out := by
  rw [decodeWalk]
  simp only [List.getD_eq_getElem?_getD, here, child, Option.getD_some]

/-- One bit leads from an Internal node to a child: a Leaf's character is written and the walk is back at the root, or the
walk goes on at an Internal node of a greater index. -/
theorem HoldsTree.walk_cons {x : Nat} {l r : Tree} {is : List Nat} (h : HoldsTree ns x (.node l r) is)
    (sorted : is.Pairwise (· < ·)) (d : Bool) :
    (∃ c, (if d then r else l) = .leaf c ∧ ∀ bs out,
      decodeWalk ns cap stop (d :: bs) x out = emitChar cap c out >>= decodeWalk ns cap stop bs 0) ∨
    (∃ l' r' y js, (if d then r else l) = .node l' r' ∧ x < y ∧ HoldsTree ns y (.node l' r') js ∧
      js.Pairwise (· < ·) ∧ ∀ bs out,
        decodeWalk ns cap stop (d :: bs) x out = decodeWalk ns cap stop bs y out) := by
  cases h with
  | @internal _ a b w _ _ is js here left right =>
    obtain ⟨above, sorted⟩ := List.pairwise_cons.mp sorted
    obtain ⟨sortedL, sortedR, -⟩ := List.pairwise_append.mp sorted
    have child : ∃ ks, HoldsTree ns (if d then b.toNat else a.toNat) (if d then r else l) ks ∧
        ks.Pairwise (· < ·) ∧ ks ⊆ is ++ js := by
      cases d with
      | false => exact ⟨is, left, sortedL, List.subset_append_left is js⟩
      | true => exact ⟨js, right, sortedR, List.subset_append_right is js⟩
    obtain ⟨ks, held, sortedK, sub⟩ := child
    have below := above _ (sub held.mem_self)
    generalize hu : (if d then r else l) = u at held
    cases u with
    | leaf c =>
      cases held with
      | leaf leaf => exact .inl ⟨c, rfl, decodeWalk_to_leaf here d leaf⟩
    | node l' r' =>
      have held' := held
      cases held with
      | internal node => exact .inr ⟨l', r', _, _, rfl, below, held', sortedK, decodeWalk_to_internal here d node⟩

/-- A path to a Leaf writes its character. -/
theorem HoldsTree.walk_follow {x : Nat} {l r : Tree} {is : List Nat} (h : HoldsTree ns x (.node l r) is)
    (sorted : is.Pairwise (· < ·)) {code : List Bool} {c : Word} (hc : (Tree.node l r).follow code = some c)
    (bs : List Bool) (out : List Word) :
    decodeWalk ns cap stop (code ++ bs) x out = emitChar cap c out >>= decodeWalk ns cap stop bs 0 := by
  induction code generalizing x l r is with
  | nil => cases hc
  | cons d code ih =>
    rw [follow_node_cons] at hc
    rw [List.cons_append]
    rcases h.walk_cons (cap := cap) (stop := stop) sorted d with
      ⟨c', child, step⟩ | ⟨l', r', y, js, child, -, held, sorted', step⟩
    · rw [child] at hc
      cases code with
      | nil => cases hc; exact step bs out
      | cons => cases hc
    · rw [child] at hc
      rw [step]
      exact ih held sorted' hc

/-- Bits that lead to no Leaf leave the walk inside the tree, where the stop position cuts it off. -/
theorem HoldsTree.walk_cut {x : Nat} {l r : Tree} {is : List Nat} (h : HoldsTree ns x (.node l r) is)
    (sorted : is.Pairwise (· < ·)) {bs : List Bool} (inside : 0 < x ∨ bs ≠ [])
    (noWord : ∀ code rest c, bs = code ++ rest → (Tree.node l r).follow code ≠ some c) (out : List Word) :
    decodeWalk ns cap stop bs x out = .error (.truncatedStream stop (stop + 1) stop) := by
  induction bs generalizing x l r is with
  | nil =>
    rw [decodeWalk, if_neg (by simp at inside; omega)]
  | cons d bs ih =>
    rcases h.walk_cons (cap := cap) (stop := stop) sorted d with
      ⟨c, child, -⟩ | ⟨l', r', y, js, child, below, held, sorted', step⟩
    · exact absurd (by rw [follow_node_cons, child]; rfl) (noWord [d] bs c rfl)
    · rw [step]
      refine ih held sorted' (.inl (by omega)) fun code rest c split found => ?_
      exact noWord (d :: code) rest c (by rw [split]; rfl) (by rw [follow_node_cons, child, found])

end Walk

/-! ### Phase 3 between two characters -/

/-- What Phase 3 does with the payload bits `bs` from position `pos` on, the characters `out` being written: a bare Leaf's
bits are counted (R360), another tree is walked (R359). -/
def decodeRest (ns : List Node) (cap stop : Nat) (t : Tree) (bs : List Bool) (pos : Nat) (out : List Word) :
    Except CmdError (List Word) :=
  match t with
  | .leaf c => decodeSingle c cap bs pos out
  | .node _ _ => decodeWalk ns cap stop bs 0 out

theorem decodePayload_eq_decodeRest {bit : Nat → Bool} {ns : List Node} {cap first stop : Nat} {t : Tree}
    {is : List Nat} (h : HoldsTree ns 0 t is) :
    decodePayload bit ns cap first stop =
      decodeRest ns cap stop t ((List.range (stop - first)).map (fun k => bit (first + k))) first [] := by
  unfold decodePayload
  cases h with
  | leaf here => simp [here, decodeRest]
  | internal here => simp [here, decodeRest]

section Rest
variable {ns : List Node} {cap stop : Nat} {t : Tree} {is : List Nat}

theorem decodeRest_nil (pos : Nat) (out : List Word) : decodeRest ns cap stop t [] pos out = .ok out := by
  cases t <;> rfl

/-- A code's bits write its character. -/
theorem decodeRest_word (h : HoldsTree ns 0 t is) (sorted : is.Pairwise (· < ·)) {code : List Bool} {c : Word}
    (hc : t.wordOf code = some c) (bs : List Bool) (pos : Nat) (out : List Word) :
    decodeRest ns cap stop t (code ++ bs) pos out =
      emitChar cap c out >>= decodeRest ns cap stop t bs (pos + code.length) := by
  cases t with
  | node l r => exact h.walk_follow sorted hc bs out
  | leaf c' =>
    rw [Tree.wordOf] at hc
    split at hc
    case isFalse => cases hc
    case isTrue zero =>
      cases hc
      subst zero
      rw [List.singleton_append, decodeRest, decodeSingle]
      cases emitChar cap c out <;> rfl

/-- Bits that begin with no code raise. -/
theorem decodeRest_no_word (h : HoldsTree ns 0 t is) (sorted : is.Pairwise (· < ·)) {bs : List Bool} (nonempty : bs ≠ [])
    (noWord : ∀ code rest c, bs = code ++ rest → t.wordOf code ≠ some c) (pos : Nat) (out : List Word) :
    ∃ e, decodeRest ns cap stop t bs pos out = .error e := by
  cases t with
  | node l r => exact ⟨_, h.walk_cut sorted (.inr nonempty) noWord out⟩
  | leaf c =>
    cases bs with
    | nil => exact absurd rfl nonempty
    | cons b bs =>
      cases b with
      | false => exact absurd rfl (noWord [false] bs c rfl)
      | true => exact ⟨_, rfl⟩

/-- Phase 3 writes the text that the payload bits spell, where it fits, and has no other way to end without an error. -/
theorem decodeRest_eq_ok_iff (h : HoldsTree ns 0 t is) (sorted : is.Pairwise (· < ·)) {bs : List Bool} {pos : Nat}
    {out out' : List Word} (fit : out.length ≤ cap) :
    decodeRest ns cap stop t bs pos out = .ok out' ↔
      ∃ text, SpellsText t bs text ∧ out' = out ++ text ∧ out'.length ≤ cap := by
  constructor
  · intro ok
    induction hn : bs.length using Nat.strong_induction_on generalizing bs pos out with
    | _ n ih =>
    by_cases done : bs = []
    · subst done
      rw [decodeRest_nil] at ok
      cases ok
      exact ⟨[], spellsText_nil t, by simp, fit⟩
    by_cases word : ∃ code rest c, bs = code ++ rest ∧ t.wordOf code = some c
    · obtain ⟨code, rest, c, rfl, hc⟩ := word
      have nonempty : code ≠ [] := fun nil => by simp [nil] at hc
      have positive := List.length_pos_iff.mpr nonempty
      rw [decodeRest_word h sorted hc] at ok
      by_cases full : out.length = cap
      · rw [emitChar_of_full full] at ok; cases ok
      · rw [emitChar_of_lt (by omega)] at ok
        obtain ⟨text, spells, rfl, fits⟩ :=
          ih rest.length (by simp at hn; omega) (out := out ++ [c]) (by simp; omega) ok rfl
        exact ⟨c :: text, spells.cons hc, by simp, fits⟩
    · obtain ⟨e, raised⟩ := decodeRest_no_word (cap := cap) (stop := stop) h sorted done
        (fun code rest c split hc => word ⟨code, rest, c, split, hc⟩) pos out
      rw [raised] at ok
      cases ok
  · rintro ⟨text, ⟨codes, rfl, words⟩, rfl, fits⟩
    induction codes generalizing text pos out with
    | nil =>
      obtain rfl : text = [] := by simpa using words.symm
      rw [List.flatten_nil, decodeRest_nil, List.append_nil]
    | cons code codes ih =>
      cases text with
      | nil => simp at words
      | cons c text =>
        obtain ⟨hc, words⟩ := List.cons_eq_cons.mp words
        simp only [List.length_append, List.length_cons] at fits
        rw [List.flatten_cons, decodeRest_word h sorted hc, emitChar_of_lt (by omega)]
        have rest := ih (pos := pos + code.length) (out := out ++ [c]) (by simp; omega) text words (by simp; omega)
        exact rest.trans (by rw [List.append_assoc]; rfl)

end Rest

/-! ### The three phases (R350) -/

theorem decodeStream_eq_ok {cfg : Config} {nb low3 : Nat} {bit : Nat → Bool} {d : Decoded} :
    decodeStream cfg nb bit low3 = .ok d ↔ ∃ c stop text, readTreeRegion nb bit cfg.nodeCap = .ok c ∧
      stopPosition nb c.pos low3 = .ok stop ∧ decodePayload bit c.nodes cfg.outCap c.pos stop = .ok text ∧
      d = ⟨c.nodes, text, c.pos, stop⟩ := by
  unfold decodeStream
  split
  case h_1 raised => simp [raised]
  case h_2 c tree =>
    split
    case h_1 raised => simp [tree, raised]
    case h_2 stop phase2 =>
      split
      case h_1 raised => simp [tree, phase2, raised]
      case h_2 text payload => simp [tree, phase2, payload, eq_comm]

/-- DECODE's three phases succeed exactly on the well-formed streams, with the stream's tree, text and lengths. -/
theorem decodeStream_eq_ok_iff {cfg : Config} {m : Memory} {n : Nat} {d : Decoded} (hc : cfg.wf) :
    decodeStream cfg (8 * n) (streamBit m) ((ibufWord m (n - 1)).toNat % 8) = .ok d ↔
      ∃ t text, WellFormedStream cfg m n t text ∧ d = ⟨t.nodesFrom 0, text, t.bits.length, stopOf m n⟩ := by
  have cap := nodeCap_lt hc
  have payload : ∀ (t : Tree) (text : List Word), t.StandsAt (8 * n) (streamBit m) cfg.nodeCap 0 0 →
      (decodePayload (streamBit m) (t.nodesFrom 0) cfg.outCap t.bits.length (stopOf m n) = .ok text ↔
        SpellsText t (payloadOf m n t) text ∧ text.length ≤ cfg.outCap) := by
    intro t text stands
    have ⟨_, fits, _⟩ := Tree.standsAt_iff.mp stands
    have holds := t.holdsTree_nodesFrom (j := 0) [] [] rfl (by omega)
    rw [List.nil_append, List.append_nil] at holds
    rw [decodePayload_eq_decodeRest holds, decodeRest_eq_ok_iff holds List.pairwise_lt_range' (Nat.zero_le _)]
    simp [payloadOf]
  rw [decodeStream_eq_ok]
  constructor
  · rintro ⟨c, stop, text, tree, phase2, phase3, rfl⟩
    obtain ⟨t, stands, rfl⟩ := (readTreeRegion_eq_ok_iff (by omega)).mp tree
    obtain ⟨trailer, behind, rfl⟩ := stopPosition_eq_ok_iff.mp phase2
    obtain ⟨spells, fits⟩ := (payload t text stands).mp phase3
    exact ⟨t, text, ⟨treeRegionOf_iff.mpr stands, trailer, behind, spells, fits⟩, rfl⟩
  · rintro ⟨t, text, ⟨region, trailer, behind, spells, fits⟩, rfl⟩
    have stands := treeRegionOf_iff.mp region
    exact ⟨⟨t.bits.length, t.nodesFrom 0⟩, stopOf m n, text,
      (readTreeRegion_eq_ok_iff (by omega)).mpr ⟨t, stands, rfl⟩,
      stopPosition_eq_ok_iff.mpr ⟨trailer, behind, rfl⟩, (payload t text stands).mpr ⟨spells, fits⟩, rfl⟩

/-! ### DECODE (R350, R351) -/

/-- DECODE leaves a tree exactly when its three phases succeed on a stream within IBUF. -/
theorem exec_decode_treeValid_iff {s : State} (fits : s.inLen.toNat ≤ s.cfg.inCap) :
    (∃ u, exec .decode s = .next u ∧ u.treeValid = true) ↔
      ∃ d, decodeStream s.cfg (8 * s.inLen.toNat) (streamBit s.ibuf)
        ((ibufWord s.ibuf (s.inLen.toNat - 1)).toNat % 8) = .ok d := by
  rw [exec_decode]
  obtain ⟨long, -⟩ | ⟨e, -, stream, body⟩ | ⟨d, -, stream, body⟩ := decodeFrom_cases (clearTree s)
  · exact absurd long (Nat.not_lt_of_le fits)
  · simp only [clearTree_cfg, clearTree_inLen, clearTree_ibuf] at stream
    simp [body, stream, decodeFailed, outputFailed]
  · simp only [clearTree_cfg, clearTree_inLen, clearTree_ibuf] at stream
    rw [body, stream]
    exact ⟨fun _ => ⟨d, rfl⟩, fun _ => ⟨_, rfl, rfl⟩⟩

/-- Settles O42: what the three phases accept, phase by phase, is what R158 lists. -/
theorem decodeAcceptsExactlyWellFormedStreams : Obligations.DecodeAcceptsExactlyWellFormedStreams := by
  intro s hc fits
  rw [exec_decode_treeValid_iff fits]
  constructor
  · rintro ⟨t, text, stream⟩
    exact ⟨_, (decodeStream_eq_ok_iff hc).mpr ⟨t, text, stream, rfl⟩⟩
  · rintro ⟨d, ok⟩
    obtain ⟨t, text, stream, -⟩ := (decodeStream_eq_ok_iff hc).mp ok
    exact ⟨t, text, stream⟩

end Sys2Proof.Machine
end

section
/-! The commands by their bodies: NOP and CLEAR, completion, and results that do not depend on hazards
(40_command_lifecycle.md R205, R210, R220, R222; 60_exceptions.md R415). -/

namespace Sys2Proof.Machine

/-! ### One body for every command -/

/-- The body each command completes (R205, R415); an illegal word raises ILLEGAL_COMMAND (R405). -/
def commandBody (i : Instr) (s : State) : Stage :=
  match i with
  | .nop => .ok s
  | .clear => .ok (clearBody s)
  | .count => countBody s
  | .build => buildBody s
  | .gencodes => gencodesBody s
  | .serialize => serializeBody s
  | .encode => encodeBody s
  | .decode => decodeBody s
  | _ => .raised (.illegalCommand (encode i)) s

theorem exec_eq_finish (i : Instr) (s : State) : exec i s = finish (commandBody i s) := by
  cases i <;> rfl

/-- Settles O26: NOP is its completion. -/
theorem nopCompletesWithNoEffect : Obligations.NopCompletesWithNoEffect := exec_nop

/-- Settles O27: CLEAR is the completion of its register writes. -/
theorem clearReturnsWorkingStateToReset : Obligations.ClearReturnsWorkingStateToReset := exec_clear

/-! ### Completion (R205, R415) -/

/-- ERR and the error record. -/
def State.errRecord (s : State) : Bool × BitVec 8 × Word × Word × Word :=
  (s.err, s.errCode, s.errArg0, s.errArg1, s.errArg2)

/-- A body that ends without an error leaves ERR and the error record as in `s`. -/
def Stage.KeepsErrRecord (g : Stage) (s : State) : Prop := ∀ u : State, g = .ok u → u.errRecord = s.errRecord

theorem encodeFailed_eq_ok {g : Stage} {u : State} (h : g.encodeFailed = .ok u) : g = .ok u := by
  cases g with
  | ok v => exact h
  | raised e v => cases h
  | stuck k => cases h

theorem Stage.KeepsErrRecord.andThen {g : Stage} {f : State → Stage} {s : State} (h : g.KeepsErrRecord s)
    (hf : ∀ u : State, (f u).KeepsErrRecord u) : (g.andThen f).KeepsErrRecord s := by
  intro v ended
  obtain ⟨u, first, second⟩ := andThen_eq_ok ended
  exact (hf u v second).trans (h u first)

theorem countBody_keepsErrRecord (s : State) : (countBody s).KeepsErrRecord s := by
  intro u ended
  obtain rfl | ⟨tab, rfl⟩ := countBody_endsIn (.inl ended) <;> rfl

theorem buildBody_keepsErrRecord (s : State) : (buildBody s).KeepsErrRecord s := by
  intro u ended
  obtain rfl | ⟨ns, r, rfl⟩ := buildFrom_endsIn (.inl ended) <;> rfl

theorem gencodesBody_keepsErrRecord (s : State) : (gencodesBody s).KeepsErrRecord s := by
  intro u ended
  obtain rfl | ⟨cs, rfl⟩ := gencodesFrom_endsIn (.inl ended) <;> rfl

theorem serializeBody_keepsErrRecord (s : State) : (serializeBody s).KeepsErrRecord s := by
  intro u ended
  obtain rfl | ⟨r, rfl⟩ := serializeBody_endsIn (.inl ended) <;> rfl

theorem encodeBody_keepsErrRecord (s : State) : (encodeBody s).KeepsErrRecord s := fun u ended =>
  (((countBody_keepsErrRecord s).andThen buildBody_keepsErrRecord).andThen gencodesBody_keepsErrRecord).andThen
    serializeBody_keepsErrRecord u (encodeFailed_eq_ok ended)

theorem decodeBody_keepsErrRecord (s : State) : (decodeBody s).KeepsErrRecord s := by
  intro u ended
  obtain rfl | ⟨d, rfl⟩ := decodeFrom_endsIn (.inl ended) <;> rfl

theorem commandBody_keepsErrRecord (i : Instr) (s : State) : (commandBody i s).KeepsErrRecord s := by
  cases i with
  | nop => rintro u ⟨⟩; rfl
  | clear => rintro u ⟨⟩; rfl
  | count => exact countBody_keepsErrRecord s
  | build => exact buildBody_keepsErrRecord s
  | gencodes => exact gencodesBody_keepsErrRecord s
  | serialize => exact serializeBody_keepsErrRecord s
  | encode => exact encodeBody_keepsErrRecord s
  | decode => exact decodeBody_keepsErrRecord s
  | _ => rintro u ⟨⟩

theorem code_bounds (e : CmdError) : 1 ≤ e.code.toNat ∧ e.code.toNat ≤ 12 := by
  cases e <;> simp [CmdError.code]

/-- Settles O49: a completion without an error is that of a body that kept the record, one with an error writes it. -/
theorem completionSetsTheFlags : Obligations.CompletionSetsTheFlags := by
  intro i s t next
  rw [exec_eq_finish] at next
  obtain ⟨u, ended, rfl⟩ | ⟨e, u, -, rfl⟩ := finish_next next
  · have kept := commandBody_keepsErrRecord i s u ended
    simp only [State.errRecord, Prod.mk.injEq] at kept
    exact ⟨rfl, rfl, .inl kept⟩
  · exact ⟨rfl, rfl, .inr ⟨rfl, code_bounds e⟩⟩

/-! ### Results do not depend on hazards (R210) -/

/-- HAZ set in the state a body ends in. -/
def Stage.withHaz : Stage → Stage
  | .ok s => .ok (setHaz s)
  | .raised e s => .raised e (setHaz s)
  | .stuck f => .stuck f

/-- A body run with HAZ set ends as without, but for HAZ. -/
def HazBlind (f : State → Stage) : Prop := ∀ s : State, f (setHaz s) = (f s).withHaz

theorem finish_withHaz (g : Stage) : finish g.withHaz = mapNext setHaz (finish g) := by cases g <;> rfl

theorem HazBlind.andThen {f g : State → Stage} (hf : HazBlind f) (hg : HazBlind g) :
    HazBlind fun s => (f s).andThen g := by
  intro s
  show (f (setHaz s)).andThen g = ((f s).andThen g).withHaz
  rw [hf s]
  cases f s with
  | ok u => exact hg u
  | raised e u => rfl
  | stuck k => rfl

theorem HazBlind.encodeFailed {f : State → Stage} (hf : HazBlind f) : HazBlind fun s => (f s).encodeFailed := by
  intro s
  show (f (setHaz s)).encodeFailed = (f s).encodeFailed.withHaz
  rw [hf s]
  cases f s <;> rfl

/-- A branch whose condition does not read HAZ. -/
theorem ite_withHaz {c : Prop} [Decidable c] {a a' b b' : Stage} (ha : a' = a.withHaz) (hb : b' = b.withHaz) :
    (if c then a' else b') = (if c then a else b).withHaz := by
  split
  · exact ha
  · exact hb

theorem countBody_hazBlind : HazBlind countBody := by
  intro s
  unfold countBody
  refine ite_withHaz rfl ?_
  simp only [setHaz_cfg, setHaz_inLen, setHaz_ibuf]
  split <;> rfl

theorem buildBody_hazBlind : HazBlind buildBody := by
  intro s
  show buildFrom (setHaz (clearTree s)) = (buildFrom (clearTree s)).withHaz
  unfold buildFrom
  refine ite_withHaz rfl (ite_withHaz rfl ?_)
  simp only [setHaz_freqN, setHaz_freq]
  split <;> rfl

theorem gencodesBody_hazBlind : HazBlind gencodesBody := by
  intro s
  show gencodesFrom (setHaz (clearCodes s)) = (gencodesFrom (clearCodes s)).withHaz
  have tree : (setHaz (clearCodes s)).tree = (clearCodes s).tree := rfl
  unfold gencodesFrom
  refine ite_withHaz rfl ?_
  simp only [setHaz_cfg, tree]
  split
  · rfl
  · split <;> rfl

theorem serializeBody_hazBlind : HazBlind serializeBody := by
  intro s
  have tree : (setHaz s).tree = s.tree := rfl
  unfold serializeBody
  refine ite_withHaz rfl (ite_withHaz rfl (ite_withHaz rfl ?_))
  simp only [setHaz_cfg, setHaz_inLen, setHaz_ibuf, setHaz_code, setHaz_codeN, tree]
  split
  · rfl
  · split <;> rfl

theorem encodeBody_hazBlind : HazBlind encodeBody :=
  (((countBody_hazBlind.andThen buildBody_hazBlind).andThen gencodesBody_hazBlind).andThen
    serializeBody_hazBlind).encodeFailed

theorem decodeBody_hazBlind : HazBlind decodeBody := by
  intro s
  show decodeFrom (setHaz (clearTree s)) = (decodeFrom (clearTree s)).withHaz
  unfold decodeFrom
  refine ite_withHaz rfl ?_
  simp only [setHaz_cfg, setHaz_inLen, setHaz_ibuf]
  split <;> rfl

theorem commandBody_hazBlind (i : Instr) : HazBlind (commandBody i) := by
  cases i with
  | count => exact countBody_hazBlind
  | build => exact buildBody_hazBlind
  | gencodes => exact gencodesBody_hazBlind
  | serialize => exact serializeBody_hazBlind
  | encode => exact encodeBody_hazBlind
  | decode => exact decodeBody_hazBlind
  | _ => exact fun _ => rfl

theorem exec_setHaz (i : Instr) (s : State) : exec i (setHaz s) = mapNext setHaz (exec i s) := by
  rw [exec_eq_finish, exec_eq_finish, commandBody_hazBlind, finish_withHaz]

end Sys2Proof.Machine
end

section
/-! Acceptance, the busy-access rule and hazards (40_command_lifecycle.md R200, R203, R210, R211). -/

namespace Sys2Proof.Machine

/-! ### Writes to CMD (R200, R203) -/

/-- Settles O8: while idle the write goes to CMD, whose write is acceptance. -/
theorem cmdWriteWhileIdleIsAccepted : Obligations.CmdWriteWhileIdleIsAccepted := fun s w idle =>
  ⟨_, _, hostWrite_regAddr s .cmd w (.inl idle)⟩

/-- Settles O9: CMD is not among the busy-allowed registers. -/
theorem cmdWriteWhileBusyIsLost : Obligations.CmdWriteWhileBusyIsLost := by
  intro s w busy
  have denied : (s.locate (regAddr s.cfg.base .cmd)).writeAllowed = false := by rw [locate_regAddr]; rfl
  exact hostWrite_of_hazard busy denied w

/-! ### The busy-access rule (R210) -/

theorem busyAllowed_iff_mem (r : Reg) :
    r.busyAllowed = true ↔ r ∈ [Reg.id, .version, .cfgNsym, .cfgIncap, .cfgOutcap, .cfgLmax, .ctrl, .status] := by
  cases r <;> decide

theorem writeAllowed_iff (l : Loc) : l.writeAllowed = true ↔ ∃ r : Reg, r.busyAllowed = true ∧ l = .reg r := by
  cases l <;> simp [Loc.writeAllowed]

theorem readAllowed_iff (l : Loc) : l.readAllowed = true ↔ l.writeAllowed = true ∨ l = .reg .cmd := by
  cases l <;> simp [Loc.readAllowed, Loc.writeAllowed]

theorem hostRead_of_allowed {s : State} {a : Word} (allowed : (s.locate a).readAllowed = true) :
    hostRead a s = (s.readLoc (s.locate a), s) := by
  rw [hostRead, allowed, Bool.not_true, Bool.and_false]; rfl

theorem hostWrite_of_allowed {s : State} {a : Word} (allowed : (s.locate a).writeAllowed = true) (v : Word) :
    hostWrite a v s = writeLoc (s.locate a) v s := by
  rw [hostWrite, allowed, Bool.not_true, Bool.and_false]; rfl

/-- Settles O10: a busy-allowed address is accessed as while idle, any other is a hazard, and no body reads HAZ. -/
theorem busyAccessRule : Obligations.BusyAccessRule := by
  refine ⟨fun s a v r _ place listed => ?_, fun s a _ place => ?_, fun s a v busy unlisted => ?_, exec_setHaz⟩
  · have write : (s.locate a).writeAllowed = true :=
      (writeAllowed_iff _).mpr ⟨r, (busyAllowed_iff_mem r).mpr listed, place⟩
    have read : (s.locate a).readAllowed = true := (readAllowed_iff _).mpr (.inl write)
    rw [hostRead_of_allowed read, hostWrite_of_allowed write, place]
    exact ⟨rfl, rfl⟩
  · have read : (s.locate a).readAllowed = true := (readAllowed_iff _).mpr (.inr place)
    rw [hostRead_of_allowed read, place]; rfl
  · have write : ¬(s.locate a).writeAllowed = true := fun allowed => by
      obtain ⟨r, listed, place⟩ := (writeAllowed_iff _).mp allowed
      exact unlisted r ((busyAllowed_iff_mem r).mp listed) place
    refine ⟨fun notCmd => ?_, hostWrite_of_hazard busy (Bool.eq_false_of_not_eq_true write) v⟩
    have read : ¬(s.locate a).readAllowed = true := fun allowed =>
      ((readAllowed_iff _).mp allowed).elim write notCmd
    exact hostRead_of_hazard busy (Bool.eq_false_of_not_eq_true read)

/-! ### Accesses while idle (R211) -/

theorem haz_writeReg_of_ne_status {r : Reg} (h : r ≠ .status) (v : Word) (s : State) :
    (writeReg r v s).haz = s.haz := by
  cases r with
  | status => exact absurd rfl h
  | _ => rfl

theorem haz_writeLoc_of_ne_status {l : Loc} (h : l ≠ .reg .status) (v : Word) (s : State) :
    (writeLoc l v s).haz = s.haz := by
  cases l with
  | reg r => exact haz_writeReg_of_ne_status (fun status => h (congrArg Loc.reg status)) v s
  | window w o =>
    rw [writeLoc]
    split
    · exact setWin_haz ..
    · rfl
  | unmapped => rfl

/-- Settles O11: of all the places a write can go to, STATUS alone clears HAZ, and none sets it. -/
theorem idleAccessIsNoHazard : Obligations.IdleAccessIsNoHazard := by
  intro s a v idle
  rw [hostRead_of_idle idle, hostWrite_of_idle idle]
  refine ⟨rfl, ?_⟩
  by_cases status : s.locate a = .reg .status
  · rw [status, writeLoc, writeReg, ackStatus_haz]
    simp
  · rw [haz_writeLoc_of_ne_status status]
    simp [status]

end Sys2Proof.Machine
end

section
/-! The engine's step, and that an accepted command completes (40_command_lifecycle.md R201, R205, R206). -/

namespace Sys2Proof.Machine

/-! ### The engine's step (R201, R205) -/

theorem step_eq_exec {s : State} (busy : s.busy = true) (now : s.pending = [] ∨ s.busyTurns = 0) :
    step s = exec s.command s := by
  obtain ⟨-, engine⟩ | ⟨host, -⟩ := step_cases s
  · exact engine
  · rw [(engineMoves_iff s).mpr ⟨busy, now⟩] at host; cases host

theorem lastCmd_withFetchWord (s : State) (w : Word) : (s.withFetchWord 32 w.toNat).lastCmd = w := by
  show BitVec.ofNat 32 (w.toNat % 2 ^ 32) = w
  rw [Nat.mod_eq_of_lt w.isLt, BitVec.ofNat_toNat, BitVec.setWidth_eq]

/-- Settles O6: the engine moves in both, and runs the command of LAST_CMD. -/
theorem stepRunsTheAcceptedCommand : Obligations.StepRunsTheAcceptedCommand := by
  refine ⟨fun s => step_eq_exec, fun s w => ⟨?_, lastCmd_withFetchWord s w⟩⟩
  have engine : step (s.withFetchWord 32 w.toNat) = exec (s.withFetchWord 32 w.toNat).command _ :=
    step_eq_exec rfl (.inr rfl)
  rw [engine, State.command, lastCmd_withFetchWord]

/-! ### Host transactions while a command runs (R206) -/

/-- What decides whose turn it is: BUSY and the model's own count of the events to come (log 3). -/
def State.turn (s : State) : Bool × List HostEvent × Nat := (s.busy, s.pending, s.busyTurns)

theorem turn_writeReg_of_busyAllowed {r : Reg} (h : r.busyAllowed = true) (v : Word) (s : State) :
    (writeReg r v s).turn = s.turn := by
  cases r with
  | cmd => cases h
  | _ => rfl

theorem turn_hostWrite_of_busy {s : State} (busy : s.busy = true) (a v : Word) : (hostWrite a v s).turn = s.turn := by
  obtain ⟨-, -, hazard⟩ | ⟨idle | allowed, written⟩ := hostWrite_cases a v s
  · rw [hazard]; rfl
  · rw [busy] at idle; cases idle
  · obtain ⟨r, listed, place⟩ := (writeAllowed_iff _).mp allowed
    rw [written, place]
    exact turn_writeReg_of_busyAllowed listed v s

theorem turn_hostRead (a : Word) (s : State) : (hostRead a s).2.turn = s.turn := by
  obtain ⟨-, -, hazard⟩ | ⟨-, read⟩ := hostRead_cases a s
  · rw [hazard]; rfl
  · rw [read]

/-- A transaction the bus can carry is answered, and leaves the running command running. -/
theorem hostEvent_of_plain {e : HostEvent} (plain : e.plain = true) {s : State} (busy : s.busy = true) :
    ∃ t, hostEvent e s = .next t ∧ t.turn = s.turn := by
  cases e with
  | read a => exact ⟨_, hostEvent_read_of_aligned plain s, turn_hostRead a s⟩
  | write a v => exact ⟨_, hostEvent_write_of_aligned plain v s, turn_hostWrite_of_busy busy a v⟩
  | reset => cases plain

/-! ### Completion after finitely many steps -/

theorem run_succ (M : Host.Core) {s u : M.State} (h : M.step s = .next u) (k : Nat) :
    M.run (k + 1) s = M.run k u := by
  rw [Host.Core.run, h]

/-- A run of at most `n` steps completes the command. -/
def CompletesWithin (n : Nat) (s : State) : Prop :=
  ∃ k t, k ≤ n ∧ Sys2Proof.core.run k s = .next t ∧ t.busy = false ∧ t.done = true

theorem CompletesWithin.of_step {s u : State} {n : Nat} (next : step s = .next u) (h : CompletesWithin n u) :
    CompletesWithin (n + 1) s := by
  obtain ⟨k, t, bound, run, completed⟩ := h
  exact ⟨k + 1, t, Nat.succ_le_succ bound, (run_succ core next k).trans run, completed⟩

/-- Over a sound state the engine's step completes the command. -/
theorem completesWithin_of_engineMoves {s : State} (sound : s.Sound) (busy : s.busy = true)
    (now : s.pending = [] ∨ s.busyTurns = 0) (n : Nat) : CompletesWithin (n + 1) s := by
  obtain ⟨t, next, -⟩ := exec_sound s.command sound
  obtain ⟨idle, done, -⟩ := completionSetsTheFlags s.command s t next
  exact .of_step ((step_eq_exec busy now).trans next) ⟨0, t, Nat.zero_le n, rfl, idle, done⟩

/-- While events are to come before the completion, a transaction takes the next and the count goes down by one. -/
theorem step_transaction {s : State} {e : HostEvent} {q : List HostEvent} {n : Nat} (sound : s.Sound)
    (busy : s.busy = true) (pending : s.pending = e :: q) (turns : s.busyTurns = n + 1) (plain : e.plain = true) :
    ∃ t, step s = .next t ∧ t.Sound ∧ t.turn = (true, q, n) := by
  have step_eq := otherwiseTheHostMoves.1 s e q pending (.inr (by simp [turns]))
  obtain ⟨t, next, turn⟩ :=
    hostEvent_of_plain plain (s := { s with pending := q, busyTurns := s.busyTurns - 1 }) busy
  refine ⟨t, step_eq.trans next, stepKeepsSound s t sound (step_eq.trans next), ?_⟩
  rw [turn, State.turn, busy, turns]; rfl

/-- By induction on the number of events still to come before the completion. -/
theorem completesWithin_busyTurns {n : Nat} {s : State} (sound : s.Sound) (busy : s.busy = true)
    (plain : ∀ e ∈ s.pending, e.plain = true) (turns : s.busyTurns = n) : CompletesWithin (n + 1) s := by
  induction n generalizing s with
  | zero => exact completesWithin_of_engineMoves sound busy (.inr turns) 0
  | succ n ih =>
    cases pending : s.pending with
    | nil => exact completesWithin_of_engineMoves sound busy (.inl pending) (n + 1)
    | cons e q =>
      rw [pending, List.forall_mem_cons] at plain
      obtain ⟨first, rest⟩ := plain
      obtain ⟨u, next, soundU, turn⟩ := step_transaction sound busy pending turns first
      simp only [State.turn, Prod.mk.injEq] at turn
      obtain ⟨busyU, pendingU, turnsU⟩ := turn
      exact .of_step next (ih soundU busyU (pendingU ▸ rest) turnsU)

/-- Settles O56: each transaction brings the completion nearer, and the engine's step completes. -/
theorem everyAcceptedCommandCompletes : Obligations.EveryAcceptedCommandCompletes := fun _ sound busy plain =>
  completesWithin_busyTurns sound busy plain rfl

end Sys2Proof.Machine
end

section
/-! COUNT tabulates the text, or reports the first element that it cannot count (41_frequency_counter.md R240, R241). -/

namespace Sys2Proof.Machine

/-! ### One more occurrence of a character -/

theorem hasSym_eq_true_iff {c : Word} {tab : List FreqEntry} : hasSym c tab = true ↔ c ∈ tab.map FreqEntry.sym := by
  simp [hasSym]

theorem mem_map_sym_bump {c d : Word} {tab : List FreqEntry} :
    d ∈ (bump c tab).map FreqEntry.sym ↔ d = c ∨ d ∈ tab.map FreqEntry.sym := by
  induction tab with
  | nil => simp [bump]
  | cons x tab ih =>
    rw [bump]
    split
    case isTrue same => simp [same]
    case isFalse =>
      split
      · simp
      · rw [List.map_cons, List.mem_cons, ih, List.map_cons, List.mem_cons, or_left_comm]

/-- An entry of the table after one more `c`: an old entry of another character, the old entry of `c` with one
occurrence more, or the first entry of `c`. -/
theorem mem_bump_cases {c : Word} {tab : List FreqEntry} {e : FreqEntry} (sorted : Ascending tab) (h : e ∈ bump c tab) :
    (e.sym ≠ c ∧ e ∈ tab) ∨ (∃ d ∈ tab, d.sym = c ∧ e = ⟨c, d.count + 1⟩) ∨
      (c ∉ tab.map FreqEntry.sym ∧ e = ⟨c, 1⟩) := by
  induction tab with
  | nil => exact .inr (.inr ⟨List.not_mem_nil, List.mem_singleton.mp h⟩)
  | cons d tab ih =>
    obtain ⟨first, rest⟩ := List.pairwise_cons.mp sorted
    rw [bump] at h
    split at h
    case isTrue same =>
      rcases List.mem_cons.mp h with rfl | h
      · exact .inr (.inl ⟨d, List.mem_cons_self, same.symm, by rw [same]⟩)
      · exact .inl ⟨fun other => (first e h).ne (by rw [other, same]), List.mem_cons_of_mem _ h⟩
    case isFalse differs =>
      split at h
      case isTrue less =>
        have above : ∀ x ∈ d :: tab, c.toNat < x.sym.toNat :=
          List.forall_mem_cons.mpr ⟨less, fun x hx => less.trans (first x hx)⟩
        rcases List.mem_cons.mp h with rfl | h
        · refine .inr (.inr ⟨fun seen => ?_, rfl⟩)
          rw [← hasSym_eq_true_iff, hasSym_eq_false_of_lt above] at seen
          cases seen
        · exact .inl ⟨fun same => (above e h).ne (by rw [same]), h⟩
      case isFalse =>
        rcases List.mem_cons.mp h with rfl | h
        · exact .inl ⟨Ne.symm differs, List.mem_cons_self⟩
        · refine (ih rest h).imp (And.imp_right (List.mem_cons_of_mem _)) (Or.imp ?_ (And.imp_left ?_))
          · exact fun ⟨x, hx, counted⟩ => ⟨x, List.mem_cons_of_mem _ hx, counted⟩
          · exact fun unseen => List.not_mem_cons_of_ne_of_not_mem differs unseen

/-! ### The table of a text -/

/-- The table of COUNT once it has read `text`. -/
def tally (text : List Word) : List FreqEntry := text.foldl (fun tab c => bump c tab) []

@[simp] theorem tally_nil : tally [] = [] := rfl

theorem tally_concat (text : List Word) (c : Word) : tally (text ++ [c]) = bump c (tally text) :=
  List.foldl_concat ..

theorem ascending_tally (text : List Word) : Ascending (tally text) := by
  induction text using List.reverseRecOn with
  | nil => exact List.Pairwise.nil
  | append_singleton text c ih => rw [tally_concat]; exact ih.bump c

theorem mem_map_sym_tally {text : List Word} {c : Word} : c ∈ (tally text).map FreqEntry.sym ↔ c ∈ text := by
  induction text using List.reverseRecOn with
  | nil => simp
  | append_singleton text d ih => rw [tally_concat, mem_map_sym_bump, ih, List.mem_append, List.mem_singleton, or_comm]

theorem hasSym_tally {text : List Word} {c : Word} : hasSym c (tally text) = true ↔ c ∈ text :=
  hasSym_eq_true_iff.trans mem_map_sym_tally

theorem sym_mem_of_mem_tally {text : List Word} {e : FreqEntry} (h : e ∈ tally text) : e.sym ∈ text :=
  mem_map_sym_tally.mp (List.mem_map_of_mem h)

theorem count_of_mem_tally {text : List Word} {e : FreqEntry} (h : e ∈ tally text) :
    e.count = BitVec.ofNat 32 (text.count e.sym) := by
  induction text using List.reverseRecOn generalizing e with
  | nil => cases h
  | append_singleton text c ih =>
    rw [tally_concat] at h
    obtain ⟨other, old⟩ | ⟨d, old, rfl, rfl⟩ | ⟨unseen, rfl⟩ := mem_bump_cases (ascending_tally text) h
    case inl => simp [ih old, Ne.symm other]
    case inr.inl => simp [ih old, BitVec.ofNat_add]
    case inr.inr => simp [List.count_eq_zero.mpr (mt mem_map_sym_tally.mpr unseen)]

/-- No count wraps over a text that IN_LEN can measure. -/
theorem toNat_count_of_mem_tally {text : List Word} (short : text.length < 2 ^ 32) {e : FreqEntry}
    (h : e ∈ tally text) : e.count.toNat = text.count e.sym := by
  have le : text.count e.sym ≤ text.length := List.count_le_length
  rw [count_of_mem_tally h, BitVec.toNat_ofNat, Nat.mod_eq_of_lt (by omega)]

theorem map_sym_tally_perm (text : List Word) : ((tally text).map FreqEntry.sym).Perm text.dedup := by
  have distinct : ((tally text).map FreqEntry.sym).Nodup :=
    List.pairwise_map.mpr ((ascending_tally text).imp fun less same => less.ne (congrArg BitVec.toNat same))
  refine (List.perm_ext_iff_of_nodup distinct text.nodup_dedup).mpr fun c => ?_
  rw [mem_map_sym_tally, List.mem_dedup]

theorem length_tally (text : List Word) : (tally text).length = text.dedup.length := by
  simpa using (map_sym_tally_perm text).length_eq

theorem sum_counts_tally {text : List Word} (short : text.length < 2 ^ 32) :
    ((tally text).map fun e => e.count.toNat).sum = text.length :=
  calc ((tally text).map fun e => e.count.toNat).sum
    _ = (((tally text).map FreqEntry.sym).map fun c => text.count c).sum := by
      rw [List.map_map, List.map_congr_left fun e he => toNat_count_of_mem_tally short he]; rfl
    _ = (text.dedup.map fun c => text.count c).sum := ((map_sym_tally_perm text).map _).sum_eq
    _ = text.length := text.sum_map_count_dedup_eq_length

/-! ### The loop over the text (R240) -/

theorem countText_invalid {nSym i : Nat} {c : Word} {cs : List Word} {tab : List FreqEntry}
    (invalid : validCodePoint c = false) : countText nSym i (c :: cs) tab = .error (.invalidCodePoint i c) := by
  simp [countText, invalid]

theorem countText_full {nSym i : Nat} {read cs : List Word} {c : Word} (valid : validCodePoint c = true)
    (new : c ∉ read) (full : read.dedup.length = nSym) :
    countText nSym i (c :: cs) (tally read) = .error (.capacity 2 (nSym + 1) nSym) := by
  have unseen : hasSym c (tally read) = false := Bool.eq_false_iff.mpr (mt hasSym_tally.mp new)
  simp [countText, valid, unseen, length_tally, full]

theorem countText_room {nSym i : Nat} {read cs : List Word} {c : Word} (valid : validCodePoint c = true)
    (few : (read ++ [c]).dedup.length ≤ nSym) :
    countText nSym i (c :: cs) (tally read) = countText nSym (i + 1) cs (tally (read ++ [c])) := by
  rw [← length_tally, tally_concat, length_bump (ascending_tally read)] at few
  have room : ¬(hasSym c (tally read) = false ∧ (tally read).length = nSym) := by
    rintro ⟨unseen, full⟩
    simp [unseen, full] at few
  simp [countText, valid, room, tally_concat]

theorem length_dedup_le_of_subset {as bs : List Word} (h : as ⊆ bs) : as.dedup.length ≤ bs.dedup.length :=
  as.nodup_dedup.length_le_of_subset fun _ hc => List.mem_dedup.mpr (h (List.mem_dedup.mp hc))

/-- COUNT reads on behind a part of the text in which it meets no error. -/
theorem countText_append {nSym i : Nat} {read cs rest : List Word} (valid : ∀ c ∈ cs, validCodePoint c = true)
    (few : (read ++ cs).dedup.length ≤ nSym) :
    countText nSym i (cs ++ rest) (tally read) = countText nSym (i + cs.length) rest (tally (read ++ cs)) := by
  induction cs generalizing i read with
  | nil => simp
  | cons c cs ih =>
    obtain ⟨first, others⟩ := List.forall_mem_cons.mp valid
    rw [List.append_cons] at few ⊢
    rw [List.cons_append, countText_room first ((length_dedup_le_of_subset (List.subset_append_left ..)).trans few),
      ih others few, List.length_cons, Nat.add_right_comm, Nat.add_assoc]

/-- The text is read to its end only if every character is valid, and its table is the result. -/
theorem countText_ok {nSym i : Nat} {read cs : List Word} {tab : List FreqEntry}
    (h : countText nSym i cs (tally read) = .ok tab) :
    (∀ c ∈ cs, validCodePoint c = true) ∧ tab = tally (read ++ cs) := by
  induction cs generalizing i read with
  | nil => cases h; simp
  | cons c cs ih =>
    rw [countText] at h
    split at h
    case isTrue => cases h
    case isFalse valid =>
      split at h
      case isTrue => cases h
      case isFalse =>
        rw [← tally_concat] at h
        obtain ⟨others, rfl⟩ := ih h
        exact ⟨List.forall_mem_cons.mpr ⟨by simpa using valid, others⟩, by rw [← List.append_cons]⟩

/-! ### The command -/

theorem exec_count_of_ok {s : State} {tab : List FreqEntry} (fits : s.inLen.toNat ≤ s.cfg.inCap)
    (counted : countText s.cfg.nSym 0 s.text [] = .ok tab) : exec .count s = .next (complete (installFreq tab s)) := by
  rw [State.text] at counted
  simp [exec_count, countBody, counted, Nat.not_lt.mpr fits]

/-- How COUNT completes with an error (60_exceptions.md R415). -/
theorem exec_count_of_raised {s u : State} {e : CmdError} (h : countBody s = .raised e u) :
    ∃ t, exec .count s = .next t ∧ t.FailedWith e.code e.args.1 e.args.2.1 e.args.2.2 :=
  ⟨errorComplete e u, by rw [exec_count, h, finish_raised], rfl, rfl, rfl, rfl, rfl, rfl, rfl⟩

theorem countBody_of_error {s : State} {e : CmdError} (fits : s.inLen.toNat ≤ s.cfg.inCap)
    (failed : countText s.cfg.nSym 0 s.text [] = .error e) : countBody s = .raised e (countFailed s) := by
  rw [State.text] at failed
  simp [countBody, failed, Nat.not_lt.mpr fits]

theorem State.length_text (s : State) : s.text.length = s.inLen.toNat := by simp [State.text, ibufWords]

theorem countText_of_countable {s : State} (h : s.Countable) :
    countText s.cfg.nSym 0 s.text [] = .ok (tally s.text) := by
  obtain ⟨-, valid, few⟩ := h
  simpa [countText] using countText_append (i := 0) (read := []) (rest := []) valid few

theorem countable_of_exec_count {s t : State} (next : exec .count s = .next t) (noErr : t.err = false) :
    s.Countable := by
  obtain ⟨u, ended, -⟩ := finish_next_ok next noErr
  obtain ⟨-, body⟩ | ⟨e, -, -, body⟩ | ⟨tab, fits, counted, -⟩ := countBody_cases s
  case inl => cases ended.symm.trans body
  case inr.inl => cases ended.symm.trans body
  case inr.inr =>
    have few : tab.length ≤ s.cfg.nSym := countText_length_le List.Pairwise.nil (Nat.zero_le _) counted
    obtain ⟨valid, rfl⟩ := countText_ok (read := []) counted
    exact ⟨fits, valid, (length_tally s.text).symm.trans_le few⟩

/-- Settles O29: COUNT installs the table of the text. -/
theorem countTabulatesTheText : Obligations.CountTabulatesTheText := by
  refine ⟨fun s wf countable => ?_, fun s t _ => countable_of_exec_count⟩
  have counted := countText_of_countable countable
  obtain ⟨fits, -, few⟩ := countable
  have short : s.text.length < 2 ^ 32 := s.length_text ▸ s.inLen.isLt
  have freqN : (BitVec.ofNat 32 (tally s.text).length).toNat = (tally s.text).length := by
    obtain ⟨⟨-, nSym⟩, -⟩ := wf
    rw [BitVec.toNat_ofNat, length_tally, Nat.mod_eq_of_lt (by omega)]
  refine ⟨_, exec_count_of_ok fits counted, rfl, ?_⟩
  simp only [complete_freq, complete_freqN, installFreq_freq, installFreq_freqN, freqN, freqEntry_ofWords,
    freqEntries_ofWords]
  refine ⟨length_tally s.text, fun i hi => ?_, fun c hc => ?_, fun i j less hj => ?_, ?_, fun i behind _ => ?_⟩
  · rw [List.getD_eq_getElem _ _ hi]
    have entry := List.getElem_mem hi
    have occurs := sym_mem_of_mem_tally entry
    have count := toNat_count_of_mem_tally short entry
    exact ⟨occurs, count, count ▸ List.count_pos_iff.mpr occurs⟩
  · obtain ⟨e, he, rfl⟩ := List.mem_map.mp (mem_map_sym_tally.mpr hc)
    obtain ⟨i, hi, rfl⟩ := List.mem_iff_getElem.mp he
    exact ⟨i, hi, by rw [List.getD_eq_getElem _ _ hi]⟩
  · rw [List.getD_eq_getElem _ _ (less.trans hj), List.getD_eq_getElem _ _ hj]
    exact List.pairwise_iff_getElem.mp (ascending_tally s.text) i j (less.trans hj) hj less
  · rw [sum_counts_tally short, s.length_text]
  · exact List.getD_eq_default _ _ behind

/-- COUNT comes to element `i` when it meets no error before. -/
theorem countText_at {s : State} {i : Nat} {c : Word} (here : s.text[i]? = some c)
    (valid : ∀ x ∈ s.text.take i, validCodePoint x = true) (few : (s.text.take i).dedup.length ≤ s.cfg.nSym) :
    countText s.cfg.nSym 0 s.text [] =
      countText s.cfg.nSym i (c :: s.text.drop (i + 1)) (tally (s.text.take i)) := by
  obtain ⟨inside, rfl⟩ := List.getElem?_eq_some_iff.mp here
  have reached := countText_append (i := 0) (read := []) (rest := s.text.drop i) valid few
  rwa [List.take_append_drop, List.length_take_of_le inside.le, Nat.zero_add,
    List.drop_eq_getElem_cons inside] at reached

/-- Settles O30: the length is checked first, and the element that COUNT has come to decides. -/
theorem countReportsTheFirstError : Obligations.CountReportsTheFirstError := by
  refine fun s _ => ⟨fun long => ?_, fun i c fits here valid few => ⟨fun invalid => ?_, fun ok new full => ?_⟩⟩
  · have raised : countBody s = .raised (.capacity 1 s.inLen.toNat s.cfg.inCap) (countFailed s) := if_pos long
    simpa [CmdError.code, CmdError.args] using exec_count_of_raised raised
  · exact exec_count_of_raised
      (countBody_of_error fits ((countText_at here valid few).trans (countText_invalid invalid)))
  · exact exec_count_of_raised
      (countBody_of_error fits ((countText_at here valid few).trans (countText_full ok new full)))

end Sys2Proof.Machine
end

section
/-! BUILD's checks: the frequency mapping is in the form COUNT writes it, or the first error is reported
(42_tree_builder.md R260, R261). -/

namespace Sys2Proof.Machine

/-! ### The check of the frequency mapping (R261) -/

/-- The character before entry `i`, which the check of entry `i` compares with. -/
def prevSym (m : Memory) : Nat → Option Word
  | 0 => none
  | i + 1 => some (freqEntry m i).sym

/-- Entry `i` passes both tests of the check. -/
def FreqEntryOk (m : Memory) (i : Nat) : Prop :=
  validCodePoint (freqEntry m i).sym = true ∧ ∀ p ∈ prevSym m i, p.toNat < (freqEntry m i).sym.toNat

/-- The check come to entry `i`, with `k` entries to go. -/
def checkFrom (m : Memory) (i k : Nat) : Except CmdError Unit :=
  checkFreq i (prevSym m i) ((List.range' i k).map (freqEntry m))

theorem checkFreq_freqEntries (m : Memory) (n : Nat) : checkFreq 0 none (freqEntries m n) = checkFrom m 0 n := by
  rw [freqEntries, List.range_eq_range']; rfl

theorem checkFrom_of_invalid {m : Memory} {i : Nat} (invalid : validCodePoint (freqEntry m i).sym = false) (k : Nat) :
    checkFrom m i (k + 1) = .error (.invalidCodePoint i (freqEntry m i).sym) := by
  simp [checkFrom, List.range'_succ, checkFreq, invalid]

theorem checkFrom_of_not_above {m : Memory} {i : Nat} (valid : validCodePoint (freqEntry m (i + 1)).sym = true)
    (notAbove : (freqEntry m (i + 1)).sym.toNat ≤ (freqEntry m i).sym.toNat) (k : Nat) :
    checkFrom m (i + 1) (k + 1) =
      .error (.freqTableInvalid (i + 1) (freqEntry m (i + 1)).sym (freqEntry m i).sym) := by
  simp [checkFrom, prevSym, List.range'_succ, checkFreq, valid, notAbove]

theorem checkFrom_of_entryOk {m : Memory} {i : Nat} (ok : FreqEntryOk m i) (k : Nat) :
    checkFrom m i (k + 1) = checkFrom m (i + 1) k := by
  obtain ⟨valid, above⟩ := ok
  cases i with
  | zero => simp [checkFrom, prevSym, List.range'_succ, checkFreq, valid]
  | succ i =>
    have less : ¬(freqEntry m (i + 1)).sym.toNat ≤ (freqEntry m i).sym.toNat := Nat.not_le.mpr (above _ rfl)
    simp [checkFrom, prevSym, List.range'_succ, checkFreq, valid, less]

theorem entryOk_of_checkFrom {m : Memory} {i k : Nat} (h : checkFrom m i (k + 1) = .ok ()) : FreqEntryOk m i := by
  have valid : validCodePoint (freqEntry m i).sym = true := by
    by_contra invalid
    rw [checkFrom_of_invalid (Bool.eq_false_iff.mpr invalid)] at h
    cases h
  refine ⟨valid, fun p hp => Nat.lt_of_not_le fun notAbove => ?_⟩
  cases i with
  | zero => cases hp
  | succ i =>
    cases hp
    rw [checkFrom_of_not_above valid notAbove] at h
    cases h

theorem checkFrom_eq_ok_iff {m : Memory} {i k : Nat} :
    checkFrom m i k = .ok () ↔ ∀ j, i ≤ j → j < i + k → FreqEntryOk m j := by
  induction k generalizing i with
  | zero => exact ⟨fun _ j le lt => absurd lt (Nat.not_lt.mpr le), fun _ => rfl⟩
  | succ k ih =>
    constructor
    · intro h j le lt
      have first := entryOk_of_checkFrom h
      rw [checkFrom_of_entryOk first, ih] at h
      obtain rfl | less := Nat.eq_or_lt_of_le le
      · exact first
      · exact h j less (by omega)
    · intro h
      rw [checkFrom_of_entryOk (h i le_rfl (by omega)), ih]
      exact fun j le lt => h j (by omega) (by omega)

/-- The check comes to entry `i` when every entry before passes. -/
theorem checkFrom_of_entriesOk {m : Memory} {i : Nat} (ok : ∀ j < i, FreqEntryOk m j) (k : Nat) :
    checkFrom m 0 (i + k) = checkFrom m i k := by
  induction i generalizing k with
  | zero => rw [Nat.zero_add]
  | succ i ih =>
    rw [Nat.add_assoc, Nat.add_comm 1 k, ih (fun j hj => ok j (by omega)), checkFrom_of_entryOk (ok i (by omega))]

theorem entriesOk_iff {m : Memory} {n : Nat} :
    (∀ j < n, FreqEntryOk m j) ↔ (∀ j < n, validCodePoint (freqEntry m j).sym = true) ∧
      ∀ j, j + 1 < n → (freqEntry m j).sym.toNat < (freqEntry m (j + 1)).sym.toNat := by
  constructor
  · exact fun ok => ⟨fun j hj => (ok j hj).1, fun j hj => (ok (j + 1) hj).2 _ rfl⟩
  · rintro ⟨valid, above⟩ j hj
    refine ⟨valid j hj, fun p hp => ?_⟩
    cases j with
    | zero => cases hp
    | succ j => cases hp; exact above j hj

theorem freqOk_iff {s : State} :
    s.FreqOk ↔ (1 ≤ s.freqN.toNat ∧ s.freqN.toNat ≤ s.cfg.nSym) ∧
      checkFreq 0 none (freqEntries s.freq s.freqN.toNat) = .ok () := by
  rw [checkFreq_freqEntries, checkFrom_eq_ok_iff, and_assoc]
  simp only [Nat.zero_le, Nat.zero_add, forall_const, entriesOk_iff]
  rfl

/-! ### The command -/

theorem exec_build_of_freqOk {s : State} (h : s.FreqOk) :
    exec .build s = .next (complete (installTree (buildNodes (freqEntries s.freq s.freqN.toNat)).1
      (buildNodes (freqEntries s.freq s.freqN.toNat)).2 (clearTree s))) := by
  obtain ⟨⟨positive, few⟩, checked⟩ := freqOk_iff.mp h
  obtain ⟨zero, -⟩ | ⟨-, many, -⟩ | ⟨e, -, -, failed, -⟩ | ⟨-, -, -, body⟩ := buildFrom_cases (clearTree s)
  · rw [clearTree_freqN] at zero
    rw [zero] at positive
    cases positive
  · exact absurd few (Nat.not_le.mpr many)
  · cases failed.symm.trans checked
  · rw [exec_build, body, finish_ok, clearTree_freq, clearTree_freqN]

theorem freqOk_of_exec_build {s t : State} (next : exec .build s = .next t) (noErr : t.err = false) : s.FreqOk := by
  obtain ⟨u, ended, -⟩ := finish_next_ok next noErr
  obtain ⟨-, body⟩ | ⟨-, -, body⟩ | ⟨e, -, -, -, body⟩ | ⟨nonzero, few, checked, -⟩ := buildFrom_cases (clearTree s)
  · cases ended.symm.trans body
  · cases ended.symm.trans body
  · cases ended.symm.trans body
  · have positive : s.freqN.toNat ≠ 0 := fun zero => nonzero (BitVec.eq_of_toNat_eq zero)
    exact freqOk_iff.mpr ⟨⟨Nat.one_le_iff_ne_zero.mpr positive, few⟩, checked⟩

/-- How BUILD completes with an error (60_exceptions.md R415, R416). -/
theorem exec_build_of_raised {s : State} {e : CmdError}
    (h : buildFrom (clearTree s) = .raised e (buildFailed (clearTree s))) :
    ∃ t, exec .build s = .next t ∧ t.FailedWith e.code e.args.1 e.args.2.1 e.args.2.2 ∧
      t.nodeN = 0 ∧ t.root = NIL ∧ t.treeValid = false ∧ t.codesValid = false ∧ t.codeN = 0 :=
  ⟨errorComplete e (buildFailed (clearTree s)), by rw [exec_build, h, finish_raised],
    ⟨rfl, rfl, rfl, rfl, rfl, rfl, rfl⟩, rfl, rfl, rfl, rfl, rfl⟩

theorem buildFrom_of_zero {s : State} (zero : s.freqN = 0) : buildFrom s = .raised .emptyInput (buildFailed s) :=
  if_pos zero

theorem buildFrom_of_many {s : State} (many : s.cfg.nSym < s.freqN.toNat) :
    buildFrom s = .raised (.capacity 2 s.freqN.toNat s.cfg.nSym) (buildFailed s) := by
  have nonzero : s.freqN ≠ 0 := fun zero => by simp [zero] at many
  rw [buildFrom, if_neg nonzero, if_pos many]

/-- BUILD reports the error at entry `i` when every entry before passes. -/
theorem buildFrom_of_error {s : State} {i : Nat} {e : CmdError} (few : s.freqN.toNat ≤ s.cfg.nSym)
    (inside : i < s.freqN.toNat) (ok : ∀ j < i, FreqEntryOk s.freq j)
    (failed : ∀ k, checkFrom s.freq i (k + 1) = .error e) : buildFrom s = .raised e (buildFailed s) := by
  have nonzero : s.freqN ≠ 0 := fun zero => by simp [zero] at inside
  have checked : checkFreq 0 none (freqEntries s.freq s.freqN.toNat) = .error e := by
    obtain ⟨k, entries⟩ := Nat.exists_eq_add_of_lt inside
    rw [checkFreq_freqEntries, entries, Nat.add_assoc, checkFrom_of_entriesOk ok, failed]
  rw [buildFrom, if_neg nonzero, if_neg (Nat.not_lt.mpr few), checked]

/-- Settles O33: FREQ_N is checked first, and the first entry that does not pass decides. -/
theorem buildReportsTheFirstError : Obligations.BuildReportsTheFirstError := by
  refine fun s _ => ⟨fun zero => ?_, fun many => ?_, fun i few inside valid above => ?_⟩
  · exact exec_build_of_raised (buildFrom_of_zero (s := clearTree s) zero)
  · simpa [CmdError.code, CmdError.args] using exec_build_of_raised (buildFrom_of_many (s := clearTree s) many)
  · have ok : ∀ j < i, FreqEntryOk s.freq j := entriesOk_iff.mpr ⟨valid, above⟩
    refine ⟨fun invalid => ?_, fun validHere notFirst notAbove => ?_⟩
    · exact exec_build_of_raised (buildFrom_of_error (s := clearTree s) few inside ok (checkFrom_of_invalid invalid))
    · obtain ⟨i, rfl⟩ := Nat.exists_eq_add_of_le' notFirst
      exact exec_build_of_raised
        (buildFrom_of_error (s := clearTree s) few inside ok (checkFrom_of_not_above validHere notAbove))

end Sys2Proof.Machine
end

section
/-! Every merge of BUILD takes the two entries of least key (42_tree_builder.md R262 to R265). -/

namespace Sys2Proof.Machine

/-! ### Keys (R263) -/

/-- The key of a queue entry, in the lexicographic order. -/
def PQEntry.key (x : PQEntry) : Nat ×ₗ Nat := toLex (x.weight.toNat, x.index)

/-- The key of a node of the node memory. -/
def nodeKey (m : Memory) (i : Nat) : Nat ×ₗ Nat := toLex ((nodeWeight m i).toNat, i)

theorem keyLt_iff {x y : PQEntry} : keyLt x y = true ↔ x.key < y.key := by
  simp [keyLt, PQEntry.key, Prod.Lex.toLex_lt_toLex, BitVec.toNat_inj]

theorem nodeKeyLt_iff {m : Memory} {i j : Nat} : nodeKeyLt m i j ↔ nodeKey m i < nodeKey m j := by
  simp [nodeKeyLt, nodeKey, Prod.Lex.toLex_lt_toLex, BitVec.toNat_inj]

/-! ### The queue (R80) -/

/-- The queue is in strictly ascending order of its keys. -/
def KeyOrdered (q : List PQEntry) : Prop := q.Pairwise fun x y => x.key < y.key

theorem pqInsert_perm (x : PQEntry) (q : List PQEntry) : (pqInsert x q).Perm (x :: q) := by
  induction q with
  | nil => exact .refl _
  | cons y q ih =>
    rw [pqInsert]
    split
    · exact .refl _
    · exact (ih.cons y).trans (.swap x y q)

theorem mem_pqInsert {x y : PQEntry} {q : List PQEntry} : y ∈ pqInsert x q ↔ y = x ∨ y ∈ q :=
  (pqInsert_perm x q).mem_iff.trans List.mem_cons

theorem KeyOrdered.pqInsert {x : PQEntry} {q : List PQEntry} (h : KeyOrdered q) (new : ∀ y ∈ q, y.index ≠ x.index) :
    KeyOrdered (pqInsert x q) := by
  induction q with
  | nil => exact List.pairwise_singleton ..
  | cons y q ih =>
    obtain ⟨least, rest⟩ := List.pairwise_cons.mp h
    obtain ⟨newHead, newRest⟩ := List.forall_mem_cons.mp new
    rw [Machine.pqInsert]
    split
    case isTrue less =>
      have less := keyLt_iff.mp less
      exact List.pairwise_cons.mpr ⟨List.forall_mem_cons.mpr ⟨less, fun z hz => less.trans (least z hz)⟩, h⟩
    case isFalse notLess =>
      have differs : y.key ≠ x.key := fun same => newHead (congrArg (fun k => (ofLex k).2) same)
      have greater : y.key < x.key := lt_of_le_of_ne (not_lt.mp (mt keyLt_iff.mpr notLess)) differs
      refine List.pairwise_cons.mpr ⟨fun z hz => ?_, ih rest newRest⟩
      obtain rfl | hz := mem_pqInsert.mp hz
      · exact greater
      · exact least z hz

/-- The queue entry of a leaf and its index (R262). -/
def leafEntry (p : FreqEntry × Nat) : PQEntry := ⟨p.1.count.setWidth 64, p.2⟩

theorem leafQueue_perm (i : Nat) (es : List FreqEntry) : (leafQueue i es).Perm ((es.zipIdx i).map leafEntry) := by
  induction es generalizing i with
  | nil => exact .refl _
  | cons e es ih => exact (pqInsert_perm _ _).trans ((ih (i + 1)).cons _)

theorem mem_leafQueue {x : PQEntry} {i : Nat} {es : List FreqEntry} :
    x ∈ leafQueue i es ↔ ∃ e, i ≤ x.index ∧ es[x.index - i]? = some e ∧ x.weight = e.count.setWidth 64 := by
  rw [(leafQueue_perm i es).mem_iff, List.mem_map]
  constructor
  · rintro ⟨⟨e, j⟩, he, rfl⟩
    obtain ⟨le, here⟩ := List.mk_mem_zipIdx_iff_le_and_getElem?_sub.mp he
    exact ⟨e, le, here, rfl⟩
  · rintro ⟨e, le, here, weight⟩
    exact ⟨(e, x.index), List.mk_mem_zipIdx_iff_le_and_getElem?_sub.mpr ⟨le, here⟩, by rw [leafEntry, ← weight]⟩

theorem leafQueue_keyOrdered (i : Nat) (es : List FreqEntry) : KeyOrdered (leafQueue i es) := by
  induction es generalizing i with
  | nil => exact .nil
  | cons e es ih =>
    refine (ih (i + 1)).pqInsert fun y hy => ?_
    obtain ⟨-, above, -⟩ := mem_leafQueue.mp hy
    exact Nat.ne_of_gt above

/-- The sum of the weights in a queue, which a merge does not change. -/
def weightSum (q : List PQEntry) : Nat := (q.map fun x => x.weight.toNat).sum

theorem weightSum_cons (x : PQEntry) (q : List PQEntry) : weightSum (x :: q) = x.weight.toNat + weightSum q := by
  simp [weightSum]

theorem weightSum_pqInsert (x : PQEntry) (q : List PQEntry) :
    weightSum (pqInsert x q) = x.weight.toNat + weightSum q := by
  rw [← weightSum_cons]; exact ((pqInsert_perm x q).map _).sum_eq

/-- No sum of counts comes near the bound of a weight (00_scope.md R12). -/
theorem weightSum_leafQueue_le (i : Nat) (es : List FreqEntry) : weightSum (leafQueue i es) ≤ es.length * 2 ^ 32 := by
  induction es generalizing i with
  | nil => exact Nat.zero_le _
  | cons e es ih =>
    have count : (e.count.setWidth 64).toNat < 2 ^ 32 := by
      rw [BitVec.toNat_setWidth_of_le (by decide)]; exact e.count.isLt
    have rest := ih (i + 1)
    rw [leafQueue, weightSum_pqInsert, List.length_cons, Nat.succ_mul, Nat.add_comm]
    exact Nat.add_le_add rest count.le

/-! ### The weights in the node memory (R64) -/

theorem nodeWeight_leaf {ns : List Node} {i : Nat} {c : Word} {w : DWord} (h : ns[i]? = some (.leaf c w)) :
    nodeWeight (nodeMemory ns) i = w := by
  rw [nodeWeight, nodeWord_of_getElem? h (j := 5) (by decide), nodeWord_of_getElem? h (j := 4) (by decide)]
  exact dword_of_words w

theorem nodeWeight_internal {ns : List Node} {i : Nat} {a b : Word} {w : DWord}
    (h : ns[i]? = some (.internal a b w)) : nodeWeight (nodeMemory ns) i = w := by
  rw [nodeWeight, nodeWord_of_getElem? h (j := 5) (by decide), nodeWord_of_getElem? h (j := 4) (by decide)]
  exact dword_of_words w

/-! ### The queue when node `k` is created (R264) -/

/-- Node `k` is an Internal node, and a merge as R263 and R264 ask for it. -/
structure MergesLeast (m : Memory) (n k : Nat) : Prop where
  kind : nodeKind m k = 1
  left : inQueueAt m n k (nodeA m k).toNat
  right : inQueueAt m n k (nodeB m k).toNat
  lesserLeft : nodeKeyLt m (nodeA m k).toNat (nodeB m k).toNat
  least : ∀ j, inQueueAt m n k j → j ≠ (nodeA m k).toNat → j ≠ (nodeB m k).toNat → nodeKeyLt m (nodeB m k).toNat j
  weight : (nodeWeight m k).toNat =
    (nodeWeight m (nodeA m k).toNat).toNat + (nodeWeight m (nodeB m k).toNat).toNat

/-- The invariant of the merge loop: `q` is the queue when node `k` is created, and the Internal nodes from `n` up to `k`
are merges. -/
structure QueueAt (m : Memory) (n k : Nat) (q : List PQEntry) : Prop where
  ordered : KeyOrdered q
  mem_iff : ∀ x, x ∈ q ↔ inQueueAt m n k x.index ∧ x.weight = nodeWeight m x.index
  noWrap : weightSum q < 2 ^ 64
  merged : ∀ i, n ≤ i → i < k → MergesLeast m n i

theorem inQueueAt_start {m : Memory} {n j : Nat} : inQueueAt m n n j ↔ j < n :=
  ⟨And.left, fun lt => ⟨lt, fun _ le lt => absurd lt (Nat.not_lt.mpr le)⟩⟩

theorem QueueAt.start {m : Memory} {es : List FreqEntry} (small : es.length ≤ 2 ^ 31)
    (leaves : ∀ i e, es[i]? = some e → nodeWeight m i = e.count.setWidth 64) :
    QueueAt m es.length es.length (leafQueue 0 es) where
  ordered := leafQueue_keyOrdered 0 es
  mem_iff x := by
    simp only [mem_leafQueue, inQueueAt_start, Nat.zero_le, true_and, Nat.sub_zero]
    constructor
    · rintro ⟨e, here, weight⟩
      exact ⟨(List.getElem?_eq_some_iff.mp here).1, weight.trans (leaves _ _ here).symm⟩
    · rintro ⟨inside, weight⟩
      have here := List.getElem?_eq_getElem inside
      exact ⟨_, here, weight.trans (leaves _ _ here)⟩
  noWrap := by have bound := weightSum_leafQueue_le 0 es; omega
  merged i le lt := absurd lt (Nat.not_lt.mpr le)

section
variable {m : Memory} {n k : Nat} {q : List PQEntry}

theorem QueueAt.key_eq (h : QueueAt m n k q) {x : PQEntry} (hx : x ∈ q) : x.key = nodeKey m x.index := by
  rw [PQEntry.key, nodeKey, ← ((h.mem_iff x).mp hx).2]

/-- No two entries have one index (R263, "keys are unique"). -/
theorem QueueAt.eq_of_index_eq (h : QueueAt m n k q) {x y : PQEntry} (hx : x ∈ q) (hy : y ∈ q)
    (same : x.index = y.index) : x = y := by
  obtain ⟨-, weightx⟩ := (h.mem_iff x).mp hx
  obtain ⟨-, weighty⟩ := (h.mem_iff y).mp hy
  cases x; cases y
  cases same
  exact congrArg (PQEntry.mk · _) (weightx.trans weighty.symm)

/-- What is left of the queue when its two least entries are taken. -/
theorem QueueAt.mem_tail_iff {x y : PQEntry} (h : QueueAt m n k (x :: y :: q)) (z : PQEntry) :
    z ∈ q ↔ z ∈ x :: y :: q ∧ x.index ≠ z.index ∧ y.index ≠ z.index := by
  obtain ⟨leastx, rest⟩ := List.pairwise_cons.mp h.ordered
  obtain ⟨leasty, -⟩ := List.pairwise_cons.mp rest
  constructor
  · intro hz
    have inside : z ∈ x :: y :: q := List.mem_cons_of_mem _ (List.mem_cons_of_mem _ hz)
    refine ⟨inside, fun same => ?_, fun same => ?_⟩
    · cases h.eq_of_index_eq (by simp) inside same
      exact lt_irrefl _ (leastx x (List.mem_cons_of_mem _ hz))
    · cases h.eq_of_index_eq (by simp) inside same
      exact lt_irrefl _ (leasty y hz)
  · rintro ⟨inside, notx, noty⟩
    obtain rfl | rfl | hz : z = x ∨ z = y ∨ z ∈ q := by simpa using inside
    · exact absurd rfl notx
    · exact absurd rfl noty
    · exact hz

/-- The queue one node later: the two children have left it, and the new node is in it. -/
theorem inQueueAt_succ {j : Nat} (start : n ≤ k)
    (older : ∀ i, n ≤ i → i ≤ k → (nodeA m i).toNat < i ∧ (nodeB m i).toNat < i) :
    inQueueAt m n (k + 1) j ↔
      j = k ∨ (inQueueAt m n k j ∧ (nodeA m k).toNat ≠ j ∧ (nodeB m k).toNat ≠ j) := by
  constructor
  · rintro ⟨lt, notTaken⟩
    obtain rfl | lt := Nat.eq_or_lt_of_le (Nat.le_of_lt_succ lt)
    · exact .inl rfl
    · exact .inr ⟨⟨lt, fun i le lt => notTaken i le (by omega)⟩, notTaken k start k.lt_succ_self⟩
  · rintro (rfl | ⟨⟨lt, notTaken⟩, notHere⟩)
    · refine ⟨j.lt_succ_self, fun i le lt => ?_⟩
      obtain ⟨left, right⟩ := older i le (by omega)
      omega
    · refine ⟨by omega, fun i le lt => ?_⟩
      obtain rfl | lt := Nat.eq_or_lt_of_le (Nat.le_of_lt_succ lt)
      · exact notHere
      · exact notTaken i le lt

/-- The last node is the one entry left (R265). -/
theorem QueueAt.root {x : PQEntry} (h : QueueAt m n k [x]) (nonempty : 0 < k) : x.index + 1 = k := by
  have last : inQueueAt m n k (k - 1) := by
    refine ⟨by omega, fun i le lt => ?_⟩
    obtain ⟨-, ⟨left, -⟩, ⟨right, -⟩, -⟩ := h.merged i le lt
    omega
  have entry := List.mem_singleton.mp ((h.mem_iff ⟨nodeWeight m (k - 1), k - 1⟩).mpr ⟨last, rfl⟩)
  rw [← entry]
  exact Nat.sub_add_cancel nonempty

end

/-! ### One merge (R264) -/

section
variable {ns : List Node} {n k : Nat} {x y : PQEntry} {q : List PQEntry}

/-- Node `k` merges the first two entries of the queue. -/
def MergesHead (ns : List Node) (k : Nat) (x y : PQEntry) : Prop :=
  ns[k]? = some (.internal (BitVec.ofNat 32 x.index) (BitVec.ofNat 32 y.index) (x.weight + y.weight))

theorem QueueAt.children (small : ns.length ≤ 2 ^ 32) (h : QueueAt (nodeMemory ns) n k (x :: y :: q))
    (node : MergesHead ns k x y) :
    (nodeA (nodeMemory ns) k).toNat = x.index ∧ (nodeB (nodeMemory ns) k).toNat = y.index := by
  have inside : k < ns.length := (List.getElem?_eq_some_iff.mp node).1
  obtain ⟨⟨olderx, -⟩, -⟩ := (h.mem_iff x).mp (by simp)
  obtain ⟨⟨oldery, -⟩, -⟩ := (h.mem_iff y).mp (by simp)
  rw [nodeA_internal node, nodeB_internal node]
  exact ⟨Nat.mod_eq_of_lt (by omega), Nat.mod_eq_of_lt (by omega)⟩

theorem QueueAt.sum_lt (h : QueueAt (nodeMemory ns) n k (x :: y :: q)) :
    x.weight.toNat + (y.weight.toNat + weightSum q) < 2 ^ 64 := by
  simpa only [weightSum_cons] using h.noWrap

theorem QueueAt.mergesLeast (small : ns.length ≤ 2 ^ 32) (h : QueueAt (nodeMemory ns) n k (x :: y :: q))
    (node : MergesHead ns k x y) : MergesLeast (nodeMemory ns) n k := by
  obtain ⟨left, right⟩ := h.children small node
  have memx : x ∈ x :: y :: q := by simp
  have memy : y ∈ x :: y :: q := by simp
  obtain ⟨queuedx, weightx⟩ := (h.mem_iff x).mp memx
  obtain ⟨queuedy, weighty⟩ := (h.mem_iff y).mp memy
  obtain ⟨leastx, rest⟩ := List.pairwise_cons.mp h.ordered
  obtain ⟨leasty, -⟩ := List.pairwise_cons.mp rest
  have sum := h.sum_lt
  refine ⟨nodeKind_internal node, ?left, ?right, ?lesserLeft, ?least, ?weight⟩ <;> simp only [left, right]
  case left => exact queuedx
  case right => exact queuedy
  case lesserLeft =>
    rw [nodeKeyLt_iff, ← h.key_eq memx, ← h.key_eq memy]
    exact leastx y List.mem_cons_self
  case least =>
    intro j queued notx noty
    have entry := (h.mem_iff ⟨nodeWeight (nodeMemory ns) j, j⟩).mpr ⟨queued, rfl⟩
    have others := (h.mem_tail_iff _).mpr ⟨entry, Ne.symm notx, Ne.symm noty⟩
    rw [nodeKeyLt_iff, ← h.key_eq memy]
    exact leasty _ others
  case weight =>
    rw [nodeWeight_internal node, ← weightx, ← weighty, BitVec.toNat_add_of_lt (by omega)]

theorem QueueAt.merge (small : ns.length ≤ 2 ^ 32) (start : n ≤ k)
    (h : QueueAt (nodeMemory ns) n k (x :: y :: q)) (node : MergesHead ns k x y) :
    QueueAt (nodeMemory ns) n (k + 1) (pqInsert ⟨x.weight + y.weight, k⟩ q) := by
  obtain ⟨left, right⟩ := h.children small node
  have merged : ∀ i, n ≤ i → i < k + 1 → MergesLeast (nodeMemory ns) n i := by
    intro i le lt
    obtain rfl | lt := Nat.eq_or_lt_of_le (Nat.le_of_lt_succ lt)
    · exact h.mergesLeast small node
    · exact h.merged i le lt
  have later : ∀ j, inQueueAt (nodeMemory ns) n (k + 1) j ↔
      j = k ∨ (inQueueAt (nodeMemory ns) n k j ∧ x.index ≠ j ∧ y.index ≠ j) := fun j => by
    rw [← left, ← right]
    exact inQueueAt_succ start fun i le lt =>
      have merge := merged i le (Nat.lt_succ_of_le lt)
      ⟨merge.left.1, merge.right.1⟩
  refine ⟨?ordered, fun z => ?mem_iff, ?noWrap, merged⟩
  case ordered =>
    have rest : KeyOrdered q := h.ordered.tail.tail
    refine rest.pqInsert fun z hz => ?_
    obtain ⟨⟨older, -⟩, -⟩ := (h.mem_iff z).mp ((h.mem_tail_iff z).mp hz).1
    exact Nat.ne_of_lt older
  case mem_iff =>
    rw [mem_pqInsert, later, h.mem_tail_iff, h.mem_iff]
    constructor
    · rintro (rfl | ⟨⟨queued, weight⟩, others⟩)
      · exact ⟨.inl rfl, (nodeWeight_internal node).symm⟩
      · exact ⟨.inr ⟨queued, others⟩, weight⟩
    · rintro ⟨new | ⟨queued, others⟩, weight⟩
      · refine .inl ?_
        rw [new, nodeWeight_internal node] at weight
        rw [← weight, ← new]
      · exact .inr ⟨⟨queued, weight⟩, others⟩
  case noWrap =>
    have sum := h.sum_lt
    rw [weightSum_pqInsert]
    show (x.weight + y.weight).toNat + weightSum q < 2 ^ 64
    rw [BitVec.toNat_add_of_lt (by omega)]
    omega

end

/-! ### The merge loop (R264, R265) -/

/-- When one entry is left the loop ends, and creates nothing more. -/
theorem QueueAt.of_single {ns : List Node} {n k fuel : Nat} {x : PQEntry} (inside : k ≤ ns.length)
    (created : ns.drop k = (mergeLoop fuel [x] k).1) (h : QueueAt (nodeMemory ns) n k [x]) :
    ∃ y, QueueAt (nodeMemory ns) n ns.length [y] ∧ (mergeLoop fuel [x] k).2 = y.index := by
  rw [mergeLoop_single] at created ⊢
  obtain rfl : k = ns.length := Nat.le_antisymm inside (List.drop_eq_nil_iff.mp created)
  exact ⟨x, h, rfl⟩

/-- The nodes from `k` on are those the loop creates from the queue `q`: it keeps the invariant, up to the one entry that
is the root. -/
theorem mergeLoop_queueAt {ns : List Node} {n k fuel : Nat} {q : List PQEntry} (small : ns.length ≤ 2 ^ 32)
    (start : n ≤ k) (inside : k ≤ ns.length) (nonempty : q ≠ []) (enough : q.length ≤ fuel + 1)
    (created : ns.drop k = (mergeLoop fuel q k).1) (h : QueueAt (nodeMemory ns) n k q) :
    ∃ x, QueueAt (nodeMemory ns) n ns.length [x] ∧ (mergeLoop fuel q k).2 = x.index := by
  induction fuel generalizing q k with
  | zero =>
    obtain ⟨x, rfl⟩ : ∃ x, q = [x] :=
      List.length_eq_one_iff.mp (Nat.le_antisymm enough (List.length_pos_iff.mpr nonempty))
    exact h.of_single inside created
  | succ fuel ih =>
    match q with
    | [] => exact absurd rfl nonempty
    | [x] => exact h.of_single inside created
    | x :: y :: q =>
      rw [mergeLoop_succ] at created ⊢
      have node : MergesHead ns k x y := by rw [MergesHead, ← List.head?_drop, created]; rfl
      have more : ns.drop (k + 1) = (mergeLoop fuel (pqInsert ⟨x.weight + y.weight, k⟩ q) (k + 1)).1 := by
        rw [← List.tail_drop, created]; rfl
      have length := length_pqInsert ⟨x.weight + y.weight, k⟩ q
      simp only [List.length_cons] at enough
      exact ih (Nat.le_succ_of_le start) (List.getElem?_eq_some_iff.mp node).1
        (List.ne_nil_of_length_pos (by omega)) (by omega) more (h.merge small start node)

/-! ### The nodes of a successful BUILD (R260) -/

theorem buildNodes_leaf {es : List FreqEntry} {i : Nat} {e : FreqEntry} (h : es[i]? = some e) :
    (buildNodes es).1[i]? = some (.leaf e.sym (e.count.setWidth 64)) := by
  have inside : i < (leafNodes es).length := length_leafNodes es ▸ (List.getElem?_eq_some_iff.mp h).1
  rw [buildNodes_fst, List.getElem?_append_left inside, leafNodes, List.getElem?_map, h]
  rfl

theorem buildNodes_queueAt {es : List FreqEntry} (nonempty : es ≠ []) (small : es.length ≤ 2 ^ 31) :
    ∃ x, QueueAt (nodeMemory (buildNodes es).1) es.length (buildNodes es).1.length [x] ∧
      (buildNodes es).2 = x.index := by
  obtain ⟨length, -⟩ := buildNodes_oneTree nonempty small
  have positive := List.length_pos_iff.mpr nonempty
  have queue := length_leafQueue 0 es
  have created : (buildNodes es).1.drop es.length = (mergeLoop es.length (leafQueue 0 es) es.length).1 := by
    rw [buildNodes_fst, ← length_leafNodes es, List.drop_left]
  exact mergeLoop_queueAt (by omega) le_rfl (by omega) (List.ne_nil_of_length_pos (by omega)) (by omega) created
    (QueueAt.start small fun i e here => nodeWeight_leaf (buildNodes_leaf here))

theorem buildNodes_mergesLeast {es : List FreqEntry} (nonempty : es ≠ []) (small : es.length ≤ 2 ^ 31) {k : Nat}
    (internal : es.length ≤ k) (inside : k < (buildNodes es).1.length) :
    MergesLeast (nodeMemory (buildNodes es).1) es.length k := by
  obtain ⟨x, queue, -⟩ := buildNodes_queueAt nonempty small
  exact queue.merged k internal inside

/-- The root is the last node (R265). -/
theorem buildNodes_snd {es : List FreqEntry} (nonempty : es ≠ []) (small : es.length ≤ 2 ^ 31) :
    (buildNodes es).2 + 1 = (buildNodes es).1.length := by
  obtain ⟨length, -⟩ := buildNodes_oneTree nonempty small
  have positive := List.length_pos_iff.mpr nonempty
  obtain ⟨x, queue, root⟩ := buildNodes_queueAt nonempty small
  rw [root]
  exact queue.root (by omega)

/-! ### The command -/

theorem length_freqEntries (m : Memory) (n : Nat) : (freqEntries m n).length = n := by simp [freqEntries]

/-- The entries of a frequency mapping that BUILD accepts (R260). -/
theorem State.FreqOk.entries {s : State} (h : s.FreqOk) (wf : s.cfg.wf) :
    freqEntries s.freq s.freqN.toNat ≠ [] ∧ (freqEntries s.freq s.freqN.toNat).length ≤ 2 ^ 31 := by
  obtain ⟨positive, few, -⟩ := h
  obtain ⟨⟨-, nSym⟩, -⟩ := wf
  have length := length_freqEntries s.freq s.freqN.toNat
  exact ⟨List.ne_nil_of_length_pos (by omega), by omega⟩

/-- How many nodes BUILD makes of a mapping that it accepts (R265). -/
theorem State.FreqOk.length_buildNodes {s : State} (h : s.FreqOk) (wf : s.cfg.wf) :
    (buildNodes (freqEntries s.freq s.freqN.toNat)).1.length + 1 = 2 * s.freqN.toNat := by
  obtain ⟨nonempty, small⟩ := h.entries wf
  rw [(buildNodes_oneTree nonempty small).1, length_freqEntries]

/-- Settles O32: the merge loop keeps its queue, and each of its nodes merges the two least entries of it. -/
theorem buildMergesTheTwoLeastKeys : Obligations.BuildMergesTheTwoLeastKeys := by
  intro s t wf freqOk next k internal inside
  cases next.symm.trans (exec_build_of_freqOk freqOk)
  obtain ⟨nonempty, small⟩ := freqOk.entries wf
  have merge : MergesLeast (nodeMemory (buildNodes (freqEntries s.freq s.freqN.toNat)).1)
      (freqEntries s.freq s.freqN.toNat).length k :=
    buildNodes_mergesLeast nonempty small (by rwa [length_freqEntries]) (inside.trans_le (Nat.mod_le _ _))
  rw [length_freqEntries] at merge
  exact ⟨merge.left, merge.right, merge.lesserLeft, merge.least, merge.weight⟩

end Sys2Proof.Machine
end

section
/-! What a successful BUILD leaves in the node memory (42_tree_builder.md R265, R267; 10_state.md R49, R64). -/

namespace Sys2Proof.Machine

/-! ### Leaves -/

theorem getElem?_freqEntries {m : Memory} {n i : Nat} (h : i < n) : (freqEntries m n)[i]? = some (freqEntry m i) := by
  simp [freqEntries, h]

theorem nodeB_leaf {ns : List Node} {i : Nat} {c : Word} {w : DWord} (h : ns[i]? = some (.leaf c w)) :
    nodeB (nodeMemory ns) i = 0 := nodeWord_of_getElem? h (j := 2) (by decide)

/-! ### Reserved words and EMPTY entries (R64) -/

theorem nodeMemory_word0 (ns : List Node) (i : Nat) :
    (nodeMemory ns).readWord (32 * i) = (nodeKind (nodeMemory ns) i).setWidth 32 := by
  have word := nodeWord_ofWords ns i 0 (by decide)
  rw [nodeKind, nodeMemory, ← Nat.add_zero (32 * i), word]
  cases ns.getD i .empty <;> rfl

theorem Node.words_reserved (node : Node) : ∀ w ∈ [3, 6, 7], node.words.getD w 0 = 0 := by
  cases node <;> simp [Node.words]

theorem nodeMemory_reserved (ns : List Node) (i : Nat) :
    ∀ w ∈ [3, 6, 7], (nodeMemory ns).readWord (32 * i + 4 * w) = 0 := by
  intro w hw
  have word : w < 8 := (by decide : ∀ w ∈ [3, 6, 7], w < 8) w hw
  rw [nodeMemory, nodeWord_ofWords ns i w word]
  exact Node.words_reserved _ w hw

theorem nodeMemory_empty {ns : List Node} {i : Nat} (behind : ns.length ≤ i) (w : Nat) :
    (nodeMemory ns).readWord (32 * i + 4 * w) = 0 := by
  rw [show 32 * i + 4 * w = 32 * ns.length + 4 * (8 * (i - ns.length) + w) by omega]
  exact nodeMemory_readWord_behind ns _

/-! ### The command -/

theorem installTree_node_eq (ns : List Node) (r : Nat) (s : State) : (installTree ns r s).node = nodeMemory ns := rfl

/-- Settles O31: BUILD installs the one tree that its merges make. -/
theorem buildMakesTheTree : Obligations.BuildMakesTheTree := by
  refine ⟨fun s wf freqOk => ⟨_, exec_build_of_freqOk freqOk, rfl, ?_⟩, fun s t _ => freqOk_of_exec_build⟩
  obtain ⟨nonempty, small⟩ := freqOk.entries wf
  have length := freqOk.length_buildNodes wf
  have treeOk := treeOk_installTree (s := clearTree s) wf (buildNodes_oneTree nonempty small).2
  have root := buildNodes_snd nonempty small
  have merges := fun k => buildNodes_mergesLeast nonempty small (k := k)
  have leaves := fun i (hi : i < s.freqN.toNat) => buildNodes_leaf (getElem?_freqEntries (m := s.freq) hi)
  rw [length_freqEntries] at small merges
  obtain ⟨positive, few, -⟩ := freqOk
  generalize buildNodes (freqEntries s.freq s.freqN.toNat) = built at *
  obtain ⟨ns, r⟩ := built
  dsimp only at length treeOk root merges leaves
  have nodeN : (BitVec.ofNat 32 ns.length).toNat = ns.length := Nat.mod_eq_of_lt (by omega)
  simp only [complete_node, complete_nodeN, complete_root, installTree_node_eq, installTree_nodeN, installTree_root,
    nodeN]
  refine ⟨by omega, ?root, treeOk ?fits, fun i hi => ?leaf, fun i internal hi => ?merge, fun i _ => ?reserved,
    fun i behind _ w _ => ?empty⟩
  case root => rw [BitVec.toNat_ofNat, Nat.mod_eq_of_lt (by omega)]; omega
  case fits => rw [clearTree_cfg, Config.nodeCap]; omega
  case leaf =>
    refine ⟨nodeKind_leaf (leaves i hi), nodeA_leaf (leaves i hi), nodeB_leaf (leaves i hi), ?_⟩
    rw [nodeWeight_leaf (leaves i hi), BitVec.toNat_setWidth_of_le (by decide)]
  case merge =>
    obtain ⟨kind, ⟨left, -⟩, ⟨right, -⟩, -⟩ := merges i internal (by omega)
    exact ⟨kind, left, right⟩
  case reserved => exact ⟨nodeMemory_word0 ns i, nodeMemory_reserved ns i⟩
  case empty => exact nodeMemory_empty (by omega) w

end Sys2Proof.Machine
end

section
/-! The code table of a tree: each leaf's path, in ascending order of character (43_code_table.md R290 to R292). -/

namespace Sys2Proof.Machine

/-! ### Paths to the leaves (R291) -/

theorem follow_leaf_eq_some_iff {c d : Word} {bs : List Bool} :
    (Tree.leaf d).follow bs = some c ↔ bs = [] ∧ c = d := by
  cases bs <;> simp [Tree.follow, eq_comm]

theorem follow_node_eq_some_iff {l r : Tree} {bs : List Bool} {c : Word} :
    (Tree.node l r).follow bs = some c ↔
      (∃ rest, bs = false :: rest ∧ l.follow rest = some c) ∨ ∃ rest, bs = true :: rest ∧ r.follow rest = some c := by
  cases bs with
  | nil => simp [Tree.follow]
  | cons b rest => cases b <;> simp [follow_node_cons]

theorem mem_pathsFrom {t : Tree} {p path : List Bool} {c : Word} :
    (c, path) ∈ pathsFrom t p ↔ ∃ bs, path = p ++ bs ∧ t.follow bs = some c := by
  induction t generalizing p with
  | leaf d => simp [pathsFrom, follow_leaf_eq_some_iff, and_comm]
  | node l r ihl ihr =>
    simp only [pathsFrom, List.mem_append, ihl, ihr, follow_node_eq_some_iff, List.append_assoc, List.singleton_append]
    constructor
    · rintro (⟨bs, rfl, found⟩ | ⟨bs, rfl, found⟩)
      · exact ⟨_, rfl, .inl ⟨bs, rfl, found⟩⟩
      · exact ⟨_, rfl, .inr ⟨bs, rfl, found⟩⟩
    · rintro ⟨-, rfl, ⟨bs, rfl, found⟩ | ⟨bs, rfl, found⟩⟩
      · exact .inl ⟨bs, rfl, found⟩
      · exact .inr ⟨bs, rfl, found⟩

theorem nodup_pathsFrom (t : Tree) (p : List Bool) : (pathsFrom t p).Nodup := by
  induction t generalizing p with
  | leaf c => exact List.nodup_singleton _
  | node l r ihl ihr =>
    refine (ihl _).append (ihr _) fun ⟨c, path⟩ left right => ?_
    obtain ⟨bs, rfl, -⟩ := mem_pathsFrom.mp left
    obtain ⟨bs', same, -⟩ := mem_pathsFrom.mp right
    simp at same

/-- The list L of R290 pairs each character with its codes. -/
theorem mem_leafCodes {t : Tree} {c : Word} {bs : List Bool} : (c, bs) ∈ leafCodes t ↔ t.wordOf bs = some c := by
  cases t with
  | leaf d => by_cases zero : bs = [false] <;> simp [leafCodes, Tree.wordOf, zero, eq_comm]
  | node l r => simp [leafCodes, Tree.wordOf, mem_pathsFrom]

theorem nodup_leafCodes (t : Tree) : (leafCodes t).Nodup := by
  cases t with
  | leaf c => exact List.nodup_singleton _
  | node l r => exact nodup_pathsFrom _ _

/-! ### No code goes on behind a leaf (R295) -/

theorem eq_nil_of_follow_append {t : Tree} {bs more : List Bool} {c d : Word} (h : t.follow bs = some c)
    (longer : t.follow (bs ++ more) = some d) : more = [] := by
  induction t generalizing bs with
  | leaf x =>
    obtain ⟨rfl, -⟩ := follow_leaf_eq_some_iff.mp h
    exact (follow_leaf_eq_some_iff.mp longer).1
  | node l r ihl ihr =>
    obtain ⟨rest, rfl, found⟩ | ⟨rest, rfl, found⟩ := follow_node_eq_some_iff.mp h
    · exact ihl found longer
    · exact ihr found longer

theorem eq_of_wordOf_isPrefix {t : Tree} {bs bs' : List Bool} {c d : Word} (h : t.wordOf bs = some c)
    (h' : t.wordOf bs' = some d) (ahead : bs <+: bs') : bs = bs' := by
  obtain ⟨more, rfl⟩ := ahead
  cases t with
  | leaf x =>
    rw [Tree.wordOf, Option.ite_none_right_eq_some] at h h'
    exact h.1.trans h'.1.symm
  | node l r => rw [eq_nil_of_follow_append h h', List.append_nil]

/-! ### The order of the table (R290) -/

/-- The order in which R290 sorts the list L. -/
abbrev symLe (p q : Word × List Bool) : Prop := p.1.toNat ≤ q.1.toNat

theorem insertCode_eq_orderedInsert (p : Word × List Bool) (l : List (Word × List Bool)) :
    insertCode p l = l.orderedInsert symLe p := by
  induction l with
  | nil => rfl
  | cons q l ih => rw [insertCode, ih, List.orderedInsert_cons]

theorem sortCodes_eq_insertionSort (l : List (Word × List Bool)) : sortCodes l = l.insertionSort symLe := by
  induction l with
  | nil => rfl
  | cons p l ih => rw [sortCodes, ih, insertCode_eq_orderedInsert, List.insertionSort_cons]

theorem sortCodes_perm (l : List (Word × List Bool)) : (sortCodes l).Perm l := by
  rw [sortCodes_eq_insertionSort]
  exact List.perm_insertionSort symLe l

/-- With no repeated character the table is strictly ascending. -/
theorem sortCodes_ascending {l : List (Word × List Bool)} (distinct : (l.map Prod.fst).Nodup) :
    (sortCodes l).Pairwise fun p q => p.1.toNat < q.1.toNat := by
  have total : Std.Total symLe := ⟨fun p q => Nat.le_total p.1.toNat q.1.toNat⟩
  have trans : IsTrans _ symLe := ⟨fun _ _ _ => Nat.le_trans⟩
  have ascending : (sortCodes l).Pairwise symLe := by
    rw [sortCodes_eq_insertionSort]
    exact List.pairwise_insertionSort symLe l
  have apart : (sortCodes l).Pairwise fun p q => p.1 ≠ q.1 :=
    List.pairwise_map.mp (((sortCodes_perm l).map Prod.fst).nodup_iff.mpr distinct)
  exact ascending.imp₂ (fun _ _ le ne => Nat.lt_of_le_of_ne le fun same => ne (BitVec.eq_of_toNat_eq same)) apart

/-! ### The entry of a code (R70, R71) -/

theorem codeValue_concat (bs : List Bool) (b : Bool) :
    codeValue (bs ++ [b]) = (codeValue bs <<< 1) ||| (if b then 1 else 0) := by
  simp [codeValue]

/-- Bit `q` of a code's value is the code's bit `q` counted from its end. -/
theorem getLsbD_codeValue {bs : List Bool} (short : bs.length ≤ 64) (q : Nat) :
    (codeValue bs).getLsbD q = bs.reverse.getD q false := by
  induction bs using List.reverseRecOn generalizing q with
  | nil => simp [codeValue]
  | append_singleton bs b ih =>
    rw [List.length_append, List.length_singleton] at short
    rw [codeValue_concat, List.reverse_concat, BitVec.getLsbD_or, BitVec.getLsbD_shiftLeft]
    cases q with
    | zero => cases b <;> simp
    | succ q =>
      have last : (if b then 1 else 0 : DWord).getLsbD (q + 1) = false := by cases b <;> simp
      rw [ih (by omega), last, List.getD_cons_succ]
      by_cases inside : q + 1 < 64
      · simp [inside]
      · have behind : bs.reverse[q]? = none := List.getElem?_eq_none (by rw [List.length_reverse]; omega)
        simp [inside, behind]

section Entry
variable {p : Word × List Bool} (short : p.2.length ≤ 64)
include short

theorem toNat_len_toCodeEntry : (toCodeEntry p).len.toNat = p.2.length := Nat.mod_eq_of_lt (by omega)

theorem bits_toCodeEntry : (toCodeEntry p).bits = p.2 := by
  rw [CodeEntry.bits, toNat_len_toCodeEntry short]
  refine List.ext_getElem (by simp) fun k inside behind => ?_
  rw [List.getElem_map, List.getElem_range, toCodeEntry, getLsbD_codeValue short,
    List.getD_eq_getElem _ _ (by rw [List.length_reverse]; omega), List.getElem_reverse]
  congr 1
  omega

theorem val_toCodeEntry_above {q : Nat} (above : p.2.length ≤ q) : (toCodeEntry p).val.getLsbD q = false := by
  rw [toCodeEntry, getLsbD_codeValue short]
  exact List.getD_eq_default _ _ (by rwa [List.length_reverse])

end Entry

/-! ### Least characters -/

theorem leastSym_eq_none_iff {cs : List Word} : leastSym cs = none ↔ cs = [] := by
  cases cs with
  | nil => simp [leastSym]
  | cons c cs => cases h : leastSym cs <;> simp [leastSym, h]

theorem leastSym_least {cs : List Word} {c : Word} (h : leastSym cs = some c) :
    c ∈ cs ∧ ∀ d ∈ cs, c.toNat ≤ d.toNat := by
  induction cs generalizing c with
  | nil => cases h
  | cons x cs ih =>
    rw [leastSym] at h
    split at h
    case h_1 empty =>
      cases h
      rw [leastSym_eq_none_iff.mp empty]
      simp
    case h_2 d rest =>
      obtain ⟨mem, least⟩ := ih rest
      cases h
      split
      case isTrue le =>
        exact ⟨List.mem_cons_self, List.forall_mem_cons.mpr ⟨Nat.le_refl _, fun y hy => le.trans (least y hy)⟩⟩
      case isFalse gt =>
        exact ⟨List.mem_cons_of_mem _ mem, List.forall_mem_cons.mpr ⟨Nat.le_of_not_le gt, least⟩⟩

theorem leastSym_eq_some {cs : List Word} {c : Word} (mem : c ∈ cs) (least : ∀ d ∈ cs, c.toNat ≤ d.toNat) :
    leastSym cs = some c := by
  cases h : leastSym cs with
  | none => rw [leastSym_eq_none_iff.mp h] at mem; cases mem
  | some d =>
    obtain ⟨memd, leastd⟩ := leastSym_least h
    rw [BitVec.eq_of_toNat_eq (Nat.le_antisymm (least d memd) (leastd c mem))]

/-! ### The checks of R293 and R294 -/

theorem tooLong_eq_none_iff {lMax : Nat} {l : List (Word × List Bool)} :
    tooLong lMax l = none ↔ ∀ p ∈ l, p.2.length ≤ lMax := by
  simp [tooLong, leastSym_eq_none_iff]

theorem foldl_max_le_iff {ls : List Nat} {a n : Nat} : ls.foldl max a ≤ n ↔ a ≤ n ∧ ∀ m ∈ ls, m ≤ n := by
  induction ls generalizing a with
  | nil => simp
  | cons x ls ih => simp [ih, and_assoc]

theorem foldl_max_eq {ls : List Nat} {n : Nat} (mem : n ∈ ls) (greatest : ∀ m ∈ ls, m ≤ n) : ls.foldl max 0 = n :=
  Nat.le_antisymm (foldl_max_le_iff.mpr ⟨Nat.zero_le n, greatest⟩) ((foldl_max_le_iff.mp (Nat.le_refl _)).2 n mem)

/-- The least character with a too long code is reported with the length of its longest code. -/
theorem tooLong_eq_some {lMax : Nat} {l : List (Word × List Bool)} {c : Word} {bs : List Bool} (mem : (c, bs) ∈ l)
    (long : lMax < bs.length) (least : ∀ p ∈ l, lMax < p.2.length → c.toNat ≤ p.1.toNat)
    (greatest : ∀ bs', (c, bs') ∈ l → bs'.length ≤ bs.length) :
    tooLong lMax l = some (.codeTooLong c bs.length lMax) := by
  have first : leastSym ((l.filter fun p => lMax < p.2.length).map Prod.fst) = some c := by
    refine leastSym_eq_some (List.mem_map.mpr ⟨(c, bs), by simp [mem, long], rfl⟩) fun d hd => ?_
    obtain ⟨p, hp, rfl⟩ := List.mem_map.mp hd
    simp only [List.mem_filter, decide_eq_true_eq] at hp
    exact least p hp.1 hp.2
  have depth : (((l.filter fun p => lMax < p.2.length).filter fun p => p.1 = c).map fun p => p.2.length).foldl max 0 =
      bs.length := by
    refine foldl_max_eq (List.mem_map.mpr ⟨(c, bs), by simp [mem, long], rfl⟩) fun n hn => ?_
    obtain ⟨⟨d, path⟩, hp, rfl⟩ := List.mem_map.mp hn
    simp only [List.mem_filter, decide_eq_true_eq] at hp
    obtain ⟨⟨hp, -⟩, rfl⟩ := hp
    exact greatest path hp
  simp only [tooLong, first, Option.map_some, depth]

/-- In a list without repetition a character is repeated when it comes with two codes. -/
theorem two_le_count_iff {l : List (Word × List Bool)} (distinct : l.Nodup) {c : Word} :
    2 ≤ (l.map Prod.fst).count c ↔ ∃ bs bs', (c, bs) ∈ l ∧ (c, bs') ∈ l ∧ bs ≠ bs' := by
  have count : (l.map Prod.fst).count c = (l.filter fun p => p.1 = c).toFinset.card := by
    rw [List.toFinset_card_of_nodup (distinct.filter _), ← List.countP_eq_length_filter, List.count, List.countP_map]
    rfl
  rw [count, Nat.succ_le_iff, Finset.one_lt_card_iff]
  simp only [List.mem_toFinset, List.mem_filter, decide_eq_true_eq, Prod.exists]
  constructor
  · rintro ⟨_, bs, _, bs', ⟨mem, rfl⟩, ⟨mem', rfl⟩, apart⟩
    exact ⟨bs, bs', mem, mem', fun same => apart (by rw [same])⟩
  · rintro ⟨bs, bs', mem, mem', apart⟩
    exact ⟨c, bs, c, bs', ⟨mem, rfl⟩, ⟨mem', rfl⟩, fun same => apart (Prod.mk.inj same).2⟩

theorem repeated_eq_none_iff {l : List (Word × List Bool)} : repeated l = none ↔ (l.map Prod.fst).Nodup := by
  simp only [repeated, Option.map_eq_none_iff, leastSym_eq_none_iff, List.filter_eq_nil_iff, decide_eq_true_eq,
    List.nodup_iff_count_le_one]
  refine forall_congr' fun c => ⟨fun once => ?_, fun once _ => by omega⟩
  by_cases mem : c ∈ l.map Prod.fst
  · have := once mem; omega
  · rw [List.count_eq_zero_of_not_mem mem]; exact Nat.zero_le 1

theorem repeated_eq_some {l : List (Word × List Bool)} {c : Word} (twice : 2 ≤ (l.map Prod.fst).count c)
    (least : ∀ d, 2 ≤ (l.map Prod.fst).count d → c.toNat ≤ d.toNat) : repeated l = some (.duplicateSymbol c) := by
  have mem : c ∈ l.map Prod.fst := List.count_pos_iff.mp (by omega)
  have first : leastSym ((l.map Prod.fst).filter fun d => 2 ≤ (l.map Prod.fst).count d) = some c :=
    leastSym_eq_some (by simpa [twice] using mem) fun d hd => least d (by simpa using (List.mem_filter.mp hd).2)
  simp only [repeated, first, Option.map_some]

/-! ### The table of a tree (R290) -/

section Table
variable {lMax : Nat} {t : Tree} {cs : List CodeEntry}

theorem codeTable_eq_ok_iff :
    codeTable lMax t = .ok cs ↔ tooLong lMax (leafCodes t) = none ∧ repeated (leafCodes t) = none ∧
      cs = (sortCodes (leafCodes t)).map toCodeEntry := by
  cases long : tooLong lMax (leafCodes t) <;> cases twice : repeated (leafCodes t) <;>
    simp [codeTable, long, twice, eq_comm]

theorem codeTable_of_tooLong {e : CmdError} (long : tooLong lMax (leafCodes t) = some e) :
    codeTable lMax t = .error e := by
  simp [codeTable, long]

theorem codeTable_of_repeated {e : CmdError} (fits : tooLong lMax (leafCodes t) = none)
    (twice : repeated (leafCodes t) = some e) : codeTable lMax t = .error e := by
  simp [codeTable, fits, twice]

/-- What a code table says of its tree: one entry for each leaf, with its code, in ascending order of character. -/
structure IsCodeTable (lMax : Nat) (t : Tree) (cs : List CodeEntry) : Prop where
  length : cs.length = t.leaves
  word : ∀ e ∈ cs, t.wordOf e.bits = some e.sym
  len : ∀ e ∈ cs, 1 ≤ e.len.toNat ∧ e.len.toNat ≤ lMax
  val : ∀ e ∈ cs, ∀ q, e.len.toNat ≤ q → e.val.getLsbD q = false
  complete : ∀ bs c, t.wordOf bs = some c → ∃ e ∈ cs, e.sym = c ∧ e.bits = bs
  ascending : cs.Pairwise fun d e => d.sym.toNat < e.sym.toNat

theorem mem_map_sortCodes {l : List (Word × List Bool)} {e : CodeEntry} :
    e ∈ (sortCodes l).map toCodeEntry ↔ ∃ p ∈ l, toCodeEntry p = e := by
  simp only [List.mem_map, (sortCodes_perm l).mem_iff]

theorem isCodeTable_of_codeTable (max : lMax ≤ 64) (h : codeTable lMax t = .ok cs) : IsCodeTable lMax t cs := by
  have length := length_codeTable h
  obtain ⟨fits, once, rfl⟩ := codeTable_eq_ok_iff.mp h
  have fits := tooLong_eq_none_iff.mp fits
  have short : ∀ p ∈ leafCodes t, p.2.length ≤ 64 := fun p hp => (fits p hp).trans max
  have each {P : CodeEntry → Prop} (holds : ∀ p ∈ leafCodes t, P (toCodeEntry p)) :
      ∀ e ∈ (sortCodes (leafCodes t)).map toCodeEntry, P e := fun e he => by
    obtain ⟨p, hp, rfl⟩ := mem_map_sortCodes.mp he
    exact holds p hp
  refine ⟨length, each fun p hp => ?word, each fun p hp => ?len, each fun p hp q above => ?val,
    fun bs c hc => ?complete, List.pairwise_map.mpr (sortCodes_ascending (repeated_eq_none_iff.mp once))⟩
  case word =>
    rw [bits_toCodeEntry (short p hp)]
    exact mem_leafCodes.mp hp
  case len =>
    rw [toNat_len_toCodeEntry (short p hp)]
    refine ⟨List.length_pos_iff.mpr fun empty => ?_, fits p hp⟩
    have word : t.wordOf p.2 = some p.1 := mem_leafCodes.mp hp
    simp [empty] at word
  case val =>
    rw [toNat_len_toCodeEntry (short p hp)] at above
    exact val_toCodeEntry_above (short p hp) above
  case complete =>
    have hp := mem_leafCodes.mpr hc
    exact ⟨_, mem_map_sortCodes.mpr ⟨(c, bs), hp, rfl⟩, rfl, bits_toCodeEntry (short _ hp)⟩

/-! ### The checks in terms of the paths to the leaves (R291 to R294) -/

theorem tooLong_leafCodes_eq_none (positive : 1 ≤ lMax) (fits : ∀ bs c, t.follow bs = some c → bs.length ≤ lMax) :
    tooLong lMax (leafCodes t) = none := by
  refine tooLong_eq_none_iff.mpr fun ⟨c, bs⟩ hp => ?_
  cases t with
  | leaf d =>
    obtain ⟨-, rfl⟩ := Prod.mk.inj (List.mem_singleton.mp hp)
    exact positive
  | node l r => exact fits bs c (mem_leafCodes.mp hp)

theorem repeated_leafCodes_eq_none (once : ∀ bs bs' c, t.follow bs = some c → t.follow bs' = some c → bs = bs') :
    repeated (leafCodes t) = none := by
  refine repeated_eq_none_iff.mpr ((List.nodup_map_iff_inj_on (nodup_leafCodes t)).mpr ?_)
  rintro ⟨c, bs⟩ hp ⟨c', bs'⟩ hp' (rfl : c = c')
  cases t with
  | leaf d => rw [List.mem_singleton.mp hp, List.mem_singleton.mp hp']
  | node l r => rw [once bs bs' c (mem_leafCodes.mp hp) (mem_leafCodes.mp hp')]

theorem tooLong_leafCodes_eq_some {bs : List Bool} {c : Word} (found : t.follow bs = some c)
    (long : lMax < bs.length) (least : ∀ bs' c', t.follow bs' = some c' → lMax < bs'.length → c.toNat ≤ c'.toNat)
    (greatest : ∀ bs', t.follow bs' = some c → bs'.length ≤ bs.length) :
    tooLong lMax (leafCodes t) = some (.codeTooLong c bs.length lMax) := by
  cases t with
  | leaf d =>
    obtain ⟨rfl, -⟩ := follow_leaf_eq_some_iff.mp found
    cases long
  | node l r =>
    exact tooLong_eq_some (mem_leafCodes.mpr found) long (fun p hp => least p.2 p.1 (mem_leafCodes.mp hp))
      fun bs' hp => greatest bs' (mem_leafCodes.mp hp)

theorem repeated_leafCodes_eq_some {bs bs' : List Bool} {c : Word} (found : t.follow bs = some c)
    (found' : t.follow bs' = some c) (apart : bs ≠ bs')
    (least : ∀ bs₁ bs₂ c₁, t.follow bs₁ = some c₁ → t.follow bs₂ = some c₁ → bs₁ ≠ bs₂ → c.toNat ≤ c₁.toNat) :
    repeated (leafCodes t) = some (.duplicateSymbol c) := by
  cases t with
  | leaf d =>
    obtain ⟨rfl, -⟩ := follow_leaf_eq_some_iff.mp found
    obtain ⟨rfl, -⟩ := follow_leaf_eq_some_iff.mp found'
    exact absurd rfl apart
  | node l r =>
    have distinct := nodup_leafCodes (.node l r)
    refine repeated_eq_some
      ((two_le_count_iff distinct).mpr ⟨bs, bs', mem_leafCodes.mpr found, mem_leafCodes.mpr found', apart⟩)
      fun d twice => ?_
    obtain ⟨bs₁, bs₂, mem₁, mem₂, apart⟩ := (two_le_count_iff distinct).mp twice
    exact least bs₁ bs₂ d (mem_leafCodes.mp mem₁) (mem_leafCodes.mp mem₂) apart

end Table

end Sys2Proof.Machine
end

section
/-! GENCODES writes the code table of the tree, or reports the first error (43_code_table.md R290 to R295). -/

namespace Sys2Proof.Machine

/-! ### How GENCODES ends -/

theorem exec_gencodes_of_ok {s : State} {t : Tree} {cs : List CodeEntry} (valid : s.treeValid = true)
    (tree : s.tree = some t) (table : codeTable s.cfg.lMax t = .ok cs) :
    exec .gencodes s = .next (complete (installCodes cs (clearCodes s))) := by
  have tree' : (clearCodes s).tree = some t := tree
  simp [exec_gencodes, gencodesFrom, valid, tree', table]

/-- How GENCODES completes with an error (60_exceptions.md R415, R416). -/
theorem exec_gencodes_of_raised {s : State} {e : CmdError}
    (h : gencodesFrom (clearCodes s) = .raised e (gencodesFailed (clearCodes s))) :
    ∃ u, exec .gencodes s = .next u ∧ u.FailedWith e.code e.args.1 e.args.2.1 e.args.2.2 ∧
      u.codeN = 0 ∧ u.codesValid = false ∧ u.treeValid = s.treeValid :=
  ⟨errorComplete e (gencodesFailed (clearCodes s)), by rw [exec_gencodes, h, finish_raised],
    ⟨rfl, rfl, rfl, rfl, rfl, rfl, rfl⟩, rfl, rfl, rfl⟩

theorem gencodesFrom_of_no_tree {s : State} (down : s.treeValid = false) :
    gencodesFrom s = .raised (.notReady 0x10) (gencodesFailed s) := if_pos down

theorem gencodesFrom_of_error {s : State} {t : Tree} {e : CmdError} (valid : s.treeValid = true)
    (tree : s.tree = some t) (failed : codeTable s.cfg.lMax t = .error e) :
    gencodesFrom s = .raised e (gencodesFailed s) := by
  simp [gencodesFrom, valid, tree, failed]

theorem exec_gencodes_of_error {s : State} {t : Tree} {e : CmdError} (valid : s.treeValid = true)
    (tree : s.tree = some t) (failed : codeTable s.cfg.lMax t = .error e) :
    ∃ u, exec .gencodes s = .next u ∧ u.FailedWith e.code e.args.1 e.args.2.1 e.args.2.2 ∧
      u.codeN = 0 ∧ u.codesValid = false ∧ u.treeValid = true := by
  obtain ⟨u, next, failedWith, codeN, codes, kept⟩ :=
    exec_gencodes_of_raised (gencodesFrom_of_error (s := clearCodes s) valid tree failed)
  exact ⟨u, next, failedWith, codeN, codes, kept.trans valid⟩

theorem lMax_bounds {c : Config} (h : c.wf) : 1 ≤ c.lMax ∧ c.lMax ≤ 64 := by
  obtain ⟨-, -, -, lMax, -⟩ := h
  exact lMax

/-- Settles O34: both checks pass, and the entries are those of the tree's code table. -/
theorem gencodesAssignsThePaths : Obligations.GencodesAssignsThePaths := by
  intro s t wf valid tree few fits once
  obtain ⟨positive, max⟩ := lMax_bounds wf
  obtain ⟨⟨-, nSym⟩, -⟩ := wf
  obtain ⟨cs, table⟩ : ∃ cs, codeTable s.cfg.lMax t = .ok cs :=
    ⟨_, codeTable_eq_ok_iff.mpr ⟨tooLong_leafCodes_eq_none positive fits, repeated_leafCodes_eq_none once, rfl⟩⟩
  obtain ⟨length, word, len, val, every, ascending⟩ := isCodeTable_of_codeTable max table
  refine ⟨_, exec_gencodes_of_ok valid tree table, rfl, ?_⟩
  have codeN : (BitVec.ofNat 32 cs.length).toNat = cs.length := Nat.mod_eq_of_lt (by omega)
  simp only [complete_code, complete_codeN, installCodes_code, installCodes_codeN, codeN, codeEntry_ofWords, ← length]
  have entry {i : Nat} (hi : i < cs.length) : cs.getD i ⟨0, 0, 0⟩ = cs[i] := List.getD_eq_getElem _ _ hi
  refine ⟨trivial, fun i hi => ?entry, fun bs c hc => ?complete, fun i j less hj => ?ascending,
    fun i behind _ => List.getD_eq_default _ _ behind⟩
  case entry =>
    have mem := List.getElem_mem hi
    rw [entry hi]
    exact ⟨word _ mem, (len _ mem).1, (len _ mem).2, val _ mem⟩
  case complete =>
    obtain ⟨e, mem, sym, bits⟩ := every bs c hc
    obtain ⟨i, hi, rfl⟩ := List.getElem_of_mem mem
    exact ⟨i, hi, by rwa [entry hi], by rwa [entry hi]⟩
  case ascending =>
    rw [entry (less.trans hj), entry hj]
    exact List.pairwise_iff_getElem.mp ascending i j _ hj less

/-- Settles O35: the checks are made in this order, each on the list of the leaves' codes. -/
theorem gencodesReportsTheFirstError : Obligations.GencodesReportsTheFirstError := by
  intro s wf
  obtain ⟨positive, -⟩ := lMax_bounds wf
  refine ⟨fun down => ?notReady, fun t bs c valid tree found long least greatest => ?tooLong,
    fun t bs bs' c valid tree fits found found' apart least => ?duplicate⟩
  case notReady =>
    obtain ⟨u, next, failed, codeN, codes, -⟩ :=
      exec_gencodes_of_raised (gencodesFrom_of_no_tree (s := clearCodes s) down)
    exact ⟨u, next, failed, codeN, codes⟩
  case tooLong =>
    exact exec_gencodes_of_error valid tree (codeTable_of_tooLong (tooLong_leafCodes_eq_some found long least greatest))
  case duplicate =>
    exact exec_gencodes_of_error valid tree (codeTable_of_repeated (tooLong_leafCodes_eq_none positive fits)
      (repeated_leafCodes_eq_some found found' apart least))

/-! ### No code begins with another (R295) -/

/-- Two entries of a code table, one code ahead of the other, have one character, so they are one entry. -/
theorem IsCodeTable.eq_of_isPrefix {lMax i j : Nat} {t : Tree} {cs : List CodeEntry} (h : IsCodeTable lMax t cs)
    (hi : i < cs.length) (hj : j < cs.length) (ahead : cs[i].bits <+: cs[j].bits) : i = j := by
  have word := h.word _ (List.getElem_mem hi)
  have word' := h.word _ (List.getElem_mem hj)
  have sym : cs[i].sym = cs[j].sym := by
    rw [← eq_of_wordOf_isPrefix word word' ahead, word] at word'
    exact Option.some.inj word'
  have ascending := List.pairwise_iff_getElem.mp h.ascending
  obtain less | same | more := Nat.lt_trichotomy i j
  · exact absurd (ascending i j hi hj less) (by simp [sym])
  · exact same
  · exact absurd (ascending j i hj hi more) (by simp [sym])

/-- Settles O36: GENCODES ends in a sound state, where CODE holds the code table of a tree. -/
theorem codesArePrefixFree : Obligations.CodesArePrefixFree := by
  intro s u sound next valid i j hi hj apart ahead
  obtain ⟨v, next', sound⟩ := exec_sound .gencodes sound
  cases next.symm.trans next'
  obtain ⟨-, ⟨t, cs, -, table, codeN, entries⟩, -⟩ := sound.codesOk valid
  obtain ⟨-, max⟩ := lMax_bounds sound.cfg_wf
  have codes := isCodeTable_of_codeTable max table
  rw [codeN, ← codes.length] at hi hj
  rw [codeN, ← codes.length] at entries
  have entry {k : Nat} (hk : k < cs.length) : codeEntry u.code k = cs[k] := by
    rw [List.getElem_of_eq entries.symm hk]
    simp [codeEntries]
  rw [entry hi, entry hj] at ahead
  exact apart (codes.eq_of_isPrefix hi hj ahead)

end Sys2Proof.Machine
end

section
/-! The bit-packer: its cursor holds the bits emitted so far, and an OBUF too short for them is reported
(20_memory.md R100; 44_encoder.md R311, R316). -/

namespace Sys2Proof.Machine

/-! ### The bits of bytes -/

/-- Stream bit `p` of some bytes (R100), 0 behind them. -/
def byteBit (bytes : List Byte) (p : Nat) : Bool := (bytes.getD (p / 8) 0).getLsbD (7 - p % 8)

theorem byteBit_concat_of_ne {out : List Byte} {v w : Byte} {p : Nat} (other : p / 8 ≠ out.length) :
    byteBit (out ++ [v]) p = byteBit (out ++ [w]) p := by
  simp only [byteBit, List.getD_eq_getElem?_getD]
  obtain inside | behind := Nat.lt_or_gt_of_ne other
  · rw [List.getElem?_append_left inside, List.getElem?_append_left inside]
  · rw [List.getElem?_eq_none (by simp; omega), List.getElem?_eq_none (by simp; omega)]

theorem byteBit_concat_last (out : List Byte) (v : Byte) {p : Nat} (last : p / 8 = out.length) :
    byteBit (out ++ [v]) p = v.getLsbD (7 - p % 8) := by
  simp [byteBit, last]

theorem byteBit_concat_zero (bytes : List Byte) (p : Nat) : byteBit (bytes ++ [0]) p = byteBit bytes p := by
  simp only [byteBit, List.getD_eq_getElem?_getD]
  obtain inside | behind := Nat.lt_or_ge (p / 8) bytes.length
  · rw [List.getElem?_append_left inside]
  · rw [List.getElem?_append_right behind, List.getElem?_eq_none behind, List.getElem?_singleton]
    split <;> simp

theorem getLsbD_setAccBit (acc : Byte) {pos : Nat} (inside : pos < 8) (b : Bool) (i : Nat) :
    (setAccBit acc pos b).getLsbD i = if i = pos then b else acc.getLsbD i := by
  have mask : (1#8 <<< pos).getLsbD i = decide (i = pos) := by
    simp only [← BitVec.twoPow_eq, BitVec.getLsbD_twoPow]
    grind
  have width : acc.getLsbD i → i < 8 := BitVec.lt_of_getLsbD
  by_cases same : i = pos
  · cases b <;> simp [setAccBit, same, inside]
  · cases b <;> simpa [setAccBit, mask, same] using width

/-! ### The cursor -/

/-- The cursor holds the bits `bs`: its whole bytes in `out`, the rest at the top of ACC with zeros below. -/
structure EncCursor.Holds (c : EncCursor) (bs : List Bool) : Prop where
  nbits : c.nbits = bs.length
  bitpos : c.bitpos = 7 - bs.length % 8
  flushed : c.out.length = bs.length / 8
  bits : ∀ p, byteBit (c.out ++ [c.acc]) p = bs.getD p false

theorem start_holds : EncCursor.start.Holds [] :=
  ⟨rfl, rfl, rfl, fun p => (byteBit_concat_zero [] p).trans (by simp [byteBit])⟩

/-- The next bit at its place in ACC. -/
theorem EncCursor.Holds.byteBit_setAccBit {c : EncCursor} {bs : List Bool} (h : c.Holds bs) (b : Bool) (p : Nat) :
    byteBit (c.out ++ [setAccBit c.acc c.bitpos b]) p = (bs ++ [b]).getD p false := by
  have next : (bs ++ [b]).getD p false = if p = bs.length then b else bs.getD p false := by
    simp only [List.getD_eq_getElem?_getD, List.getElem?_append, List.getElem?_singleton]
    grind
  have flushed := h.flushed
  have bitpos := h.bitpos
  rw [next, ← h.bits]
  by_cases inAcc : p / 8 = c.out.length
  · rw [byteBit_concat_last _ _ inAcc, byteBit_concat_last _ _ inAcc, getLsbD_setAccBit _ (by omega)]
    exact if_congr (by omega) rfl rfl
  · rw [if_neg (by rintro rfl; omega), byteBit_concat_of_ne inAcc]

/-! ### A full OBUF (R316) -/

/-- The error of a byte that OBUF has no element for. -/
def obufFull (cap : Nat) : CmdError := .capacity 4 (cap + 1) cap

theorem flush_of_lt {cap : Nat} {c : EncCursor} (room : c.out.length < cap) (v : Byte) :
    flush cap v c = .ok { c with out := c.out ++ [v] } := if_neg room.ne

theorem flush_of_full {cap : Nat} {c : EncCursor} (full : c.out.length = cap) (v : Byte) :
    flush cap v c = .error (obufFull cap) := by
  rw [flush, if_pos full, full]; rfl

/-- What emitting answers once `bs` are the bits emitted in all: a cursor that holds them, if their whole bytes fit in
`cap` elements, and else that OBUF is full. -/
def Emits (cap : Nat) (bs : List Bool) (answer : Except CmdError EncCursor) : Prop :=
  (bs.length / 8 ≤ cap ∧ ∃ c, answer = .ok c ∧ c.Holds bs) ∨ (cap < bs.length / 8 ∧ answer = .error (obufFull cap))

theorem Emits.of_holds {cap : Nat} {bs : List Bool} {c : EncCursor} (h : c.Holds bs) (fits : bs.length / 8 ≤ cap) :
    Emits cap bs (.ok c) := .inl ⟨fits, c, rfl, h⟩

theorem Emits.holds {cap : Nat} {bs : List Bool} {c : EncCursor} (h : Emits cap bs (.ok c)) :
    bs.length / 8 ≤ cap ∧ c.Holds bs := by
  obtain ⟨fits, _, ⟨⟩, holds⟩ | ⟨-, ⟨⟩⟩ := h
  exact ⟨fits, holds⟩

theorem Emits.eq_ok {cap : Nat} {bs : List Bool} {answer : Except CmdError EncCursor} (h : Emits cap bs answer)
    (fits : bs.length / 8 ≤ cap) : ∃ c, answer = .ok c ∧ c.Holds bs := by
  obtain ⟨-, ok⟩ | ⟨full, -⟩ := h
  · exact ok
  · exact absurd fits (Nat.not_le.mpr full)

theorem Emits.eq_error {cap : Nat} {bs : List Bool} {answer : Except CmdError EncCursor} (h : Emits cap bs answer)
    (full : cap < bs.length / 8) : answer = .error (obufFull cap) := by
  obtain ⟨fits, -⟩ | ⟨-, error⟩ := h
  · exact absurd fits (Nat.not_le.mpr full)
  · exact error

/-- Emitting goes on where the first of two parts has ended, and not at all behind an error. -/
theorem Emits.bind {cap : Nat} {bs new : List Bool} {answer : Except CmdError EncCursor} (h : Emits cap bs answer)
    {f : EncCursor → Except CmdError EncCursor}
    (hf : ∀ c, c.Holds bs → bs.length / 8 ≤ cap → Emits cap (bs ++ new) (f c)) :
    Emits cap (bs ++ new) (answer.bind f) := by
  obtain ⟨fits, c, rfl, holds⟩ | ⟨full, rfl⟩ := h
  · exact hf c holds fits
  · exact .inr ⟨full.trans_le (Nat.div_le_div_right (by simp)), rfl⟩

theorem emitBit_within {cap : Nat} {c : EncCursor} (more : c.bitpos ≠ 0) (b : Bool) :
    emitBit cap b c = .ok ⟨setAccBit c.acc c.bitpos b, c.bitpos - 1, c.nbits + 1, c.out⟩ := if_neg more

theorem emitBit_flush {cap : Nat} {c : EncCursor} (last : c.bitpos = 0) (room : c.out.length < cap) (b : Bool) :
    emitBit cap b c = .ok ⟨0, 7, c.nbits + 1, c.out ++ [setAccBit c.acc c.bitpos b]⟩ := by
  simp only [emitBit, if_pos last, flush, if_neg room.ne]

theorem emitBit_full {cap : Nat} {c : EncCursor} (last : c.bitpos = 0) (full : c.out.length = cap) (b : Bool) :
    emitBit cap b c = .error (obufFull cap) := by
  simp only [emitBit, if_pos last, flush, full, if_true, obufFull]

theorem emitBit_emits {cap : Nat} {bs : List Bool} {c : EncCursor} (h : c.Holds bs) (fits : bs.length / 8 ≤ cap)
    (b : Bool) : Emits cap (bs ++ [b]) (emitBit cap b c) := by
  have length : (bs ++ [b]).length = bs.length + 1 := List.length_append
  have bits := h.byteBit_setAccBit b
  obtain ⟨nbits, bitpos, flushed, -⟩ := h
  by_cases last : c.bitpos = 0
  · by_cases full : c.out.length = cap
    · exact .inr ⟨by omega, emitBit_full last full b⟩
    · rw [emitBit_flush last (by omega)]
      refine .of_holds ⟨by simp [nbits], ?_, ?_, fun p => (byteBit_concat_zero _ p).trans (bits p)⟩ (by omega)
      · simp only [length]; omega
      · simp only [length, List.length_append, List.length_singleton]; omega
  · rw [emitBit_within last]
    refine .of_holds ⟨by simp [nbits], ?_, ?_, bits⟩ (by omega)
    · simp only [length]; omega
    · simp only [length]; omega

theorem emitBits_cons (cap : Nat) (b : Bool) (bs : List Bool) (c : EncCursor) :
    emitBits cap (b :: bs) c = (emitBit cap b c).bind (emitBits cap bs) := by
  rw [emitBits]; cases emitBit cap b c <;> rfl

theorem emitBits_emits {cap : Nat} {bs new : List Bool} {c : EncCursor} (h : c.Holds bs)
    (fits : bs.length / 8 ≤ cap) : Emits cap (bs ++ new) (emitBits cap new c) := by
  induction new generalizing bs c with
  | nil => rw [List.append_nil]; exact .of_holds h fits
  | cons b new ih =>
    rw [emitBits_cons, List.append_cons]
    exact (emitBit_emits h fits b).bind fun c1 => ih

end Sys2Proof.Machine
end

section
/-! The stream of a tree and a text: the tree region, the codes in order, the padding and the trailer
(30_encoding.md R150 to R156; 44_encoder.md R310 to R316). -/

namespace Sys2Proof.Machine

/-! ### The payload (R313) -/

/-- A character that SERIALIZE can emit. -/
def Coded (codes : List CodeEntry) (x : Word) : Prop := validCodePoint x = true ∧ ∃ e ∈ codes, e.sym = x

theorem emitText_invalid {cap i : Nat} {codes : List CodeEntry} {x : Word} (invalid : validCodePoint x = false)
    (xs : List Word) (c : EncCursor) : emitText cap codes i (x :: xs) c = .error (.invalidCodePoint i x) := by
  rw [emitText, if_pos invalid]

theorem emitText_uncoded {cap i : Nat} {codes : List CodeEntry} {x : Word} (valid : validCodePoint x = true)
    (uncoded : ∀ e ∈ codes, e.sym ≠ x) (xs : List Word) (c : EncCursor) :
    emitText cap codes i (x :: xs) c = .error (.symbolNotInTable i x) := by
  have none : codes.find? (fun e => e.sym = x) = none := List.find?_eq_none.mpr (by simpa using uncoded)
  simp [emitText, valid, none]

theorem Coded.find? {codes : List CodeEntry} {x : Word} (h : Coded codes x) :
    ∃ e, codes.find? (fun e => e.sym = x) = some e := by
  obtain ⟨-, e, mem, sym⟩ := h
  exact Option.isSome_iff_exists.mp (List.find?_isSome.mpr ⟨e, mem, by simpa using sym⟩)

theorem emitText_coded {cap i : Nat} {codes : List CodeEntry} {x : Word} (h : Coded codes x) (xs : List Word)
    (c : EncCursor) : emitText cap codes i (x :: xs) c =
      (emitBits cap (codeBitsOf codes x) c).bind (emitText cap codes (i + 1) xs) := by
  obtain ⟨e, found⟩ := h.find?
  have valid := h.1
  simp only [emitText, valid, found, codeBitsOf, Option.map_some, Option.getD_some, Bool.true_eq_false, if_false]
  cases emitBits cap e.bits c <;> rfl

/-- The payload loop has come to a character when every one before is coded. -/
theorem emitText_append {cap i : Nat} {codes : List CodeEntry} {xs : List Word} (coded : ∀ x ∈ xs, Coded codes x)
    (ys : List Word) (c : EncCursor) : emitText cap codes i (xs ++ ys) c =
      (emitText cap codes i xs c).bind (emitText cap codes (i + xs.length) ys) := by
  induction xs generalizing i c with
  | nil => rfl
  | cons x xs ih =>
    obtain ⟨first, rest⟩ := List.forall_mem_cons.mp coded
    rw [List.cons_append, emitText_coded first, emitText_coded first]
    cases emitBits cap (codeBitsOf codes x) c with
    | error e => rfl
    | ok c1 => exact (ih rest c1).trans (by rw [List.length_cons, Nat.add_assoc, Nat.add_comm 1]; rfl)

theorem emitText_emits {cap i : Nat} {codes : List CodeEntry} {xs : List Word} (coded : ∀ x ∈ xs, Coded codes x)
    {bs : List Bool} {c : EncCursor} (h : c.Holds bs) (fits : bs.length / 8 ≤ cap) :
    Emits cap (bs ++ xs.flatMap (codeBitsOf codes)) (emitText cap codes i xs c) := by
  induction xs generalizing i bs c with
  | nil => rw [List.flatMap_nil, List.append_nil]; exact .of_holds h fits
  | cons x xs ih =>
    obtain ⟨first, rest⟩ := List.forall_mem_cons.mp coded
    rw [emitText_coded first, List.flatMap_cons, ← List.append_assoc]
    exact (emitBits_emits h fits).bind fun c1 => ih rest

/-- The loop comes to the end of a text only when every character is coded. -/
theorem coded_of_emitText {cap i : Nat} {codes : List CodeEntry} {xs : List Word} {c c' : EncCursor}
    (h : emitText cap codes i xs c = .ok c') : ∀ x ∈ xs, Coded codes x := by
  induction xs generalizing i c with
  | nil => exact fun x mem => absurd mem List.not_mem_nil
  | cons x xs ih =>
    have valid : validCodePoint x = true := by
      by_contra invalid
      rw [emitText_invalid (Bool.eq_false_iff.mpr invalid)] at h
      cases h
    have coded : Coded codes x := by
      refine ⟨valid, ?_⟩
      by_contra uncoded
      rw [emitText_uncoded valid fun e mem sym => uncoded ⟨e, mem, sym⟩] at h
      cases h
    rw [emitText_coded coded] at h
    cases emitted : emitBits cap (codeBitsOf codes x) c with
    | error e => rw [emitted] at h; cases h
    | ok c1 => rw [emitted] at h; exact List.forall_mem_cons.mpr ⟨coded, ih h⟩

/-! ### The tree region and the payload -/

theorem Tree.length_bits_succ (t : Tree) : t.bits.length + 1 = 34 * t.leaves := by
  induction t with
  | leaf c => simp [Tree.bits, Tree.leaves, length_wordBits]
  | node l r ihl ihr =>
    simp only [Tree.bits, Tree.leaves, List.length_cons, List.length_append]
    omega

/-- The bits of the tree and of the text, emitted from the start. -/
def emitTreeAndText (cap : Nat) (t : Tree) (codes : List CodeEntry) (text : List Word) : Except CmdError EncCursor :=
  (emitBits cap t.bits EncCursor.start).bind (emitText cap codes 0 text)

section Regions
variable {cap : Nat} {t : Tree} {codes : List CodeEntry} {text : List Word}

theorem emitTree_emits (cap : Nat) (t : Tree) : Emits cap t.bits (emitBits cap t.bits EncCursor.start) :=
  emitBits_emits (bs := []) start_holds (Nat.zero_le cap)

theorem emitTreeAndText_emits (coded : ∀ x ∈ text, Coded codes x) :
    Emits cap (t.bits ++ text.flatMap (codeBitsOf codes)) (emitTreeAndText cap t codes text) :=
  (emitTree_emits cap t).bind fun _ => emitText_emits coded

theorem emitTreeAndText_append (coded : ∀ x ∈ text, Coded codes x) (ys : List Word) :
    emitTreeAndText cap t codes (text ++ ys) =
      (emitTreeAndText cap t codes text).bind (emitText cap codes text.length ys) := by
  unfold emitTreeAndText
  cases emitBits cap t.bits EncCursor.start with
  | error e => rfl
  | ok c1 => exact (emitText_append coded ys c1).trans (by rw [Nat.zero_add]; rfl)

/-- A stream is what the trailer makes of the two regions; `T` and `P` are their lengths. -/
theorem serialize_eq (cap : Nat) (t : Tree) (codes : List CodeEntry) (text : List Word) :
    serialize cap t codes text = (emitTreeAndText cap t codes text).bind fun c =>
      (emitTrailer cap c).map fun c' => ⟨c'.out, t.bits.length, c.nbits - t.bits.length⟩ := by
  have emits := emitTree_emits cap t
  unfold serialize emitTreeAndText
  cases tree : emitBits cap t.bits EncCursor.start with
  | error e => rfl
  | ok c1 =>
    rw [tree] at emits
    obtain ⟨-, holds⟩ := emits.holds
    rw [← holds.nbits]
    simp only [Except.bind]
    cases emitText cap codes 0 text c1 with
    | error e => rfl
    | ok c2 => cases trailer : emitTrailer cap c2 <;> simp only [trailer, Except.map]

theorem serialize_of_error {e : CmdError} (failed : emitTreeAndText cap t codes text = .error e) :
    serialize cap t codes text = .error e := by
  rw [serialize_eq, failed]; rfl

end Regions

/-! ### The trailer (R314) -/

/-- The bytes are the stream whose payload ends behind the bits `bs`: `bs`, zeros up to the trailer, and the trailer
from which R156 recovers the number of `bs`. -/
structure IsStream (bytes : List Byte) (bs : List Bool) : Prop where
  length : bytes.length = streamBytes bs.length
  bits : ∀ p < 8 * bytes.length - 3, byteBit bytes p = bs.getD p false
  stop : 8 * bytes.length - 10 + (bytes.getD (bytes.length - 1) 0).toNat % 8 = bs.length

theorem getLsbD_ofNat_of_lt {n i : Nat} (small : n < 8) (high : 3 ≤ i) : (BitVec.ofNat 8 n).getLsbD i = false := by
  have power : n < 2 ^ i := small.trans_le (Nat.pow_le_pow_right (n := 2) (by omega) high)
  simp [BitVec.getLsbD_ofNat, Nat.testBit_lt_two_pow power]

/-- The low three bits of a byte that has them 0, with `n` put there. -/
theorem toNat_or_mod_eight {acc : Byte} (clear : ∀ i < 3, acc.getLsbD i = false) {n : Nat} (small : n < 8) :
    (acc ||| BitVec.ofNat 8 n).toNat % 8 = n := by
  have low : acc.toNat % 2 ^ 3 = 0 := Nat.eq_of_testBit_eq fun i => by
    rw [Nat.testBit_mod_two_pow, Nat.zero_testBit]
    by_cases inside : i < 3
    · rw [BitVec.testBit_toNat, clear i inside, Bool.and_false]
    · simp [inside]
  show (acc ||| BitVec.ofNat 8 n).toNat % 2 ^ 3 = n
  rw [BitVec.toNat_or, Nat.or_mod_two_pow, low, Nat.zero_or, BitVec.toNat_ofNat]
  omega

theorem getD_concat_length {α : Type} (l : List α) (a d : α) : (l ++ [a]).getD l.length d = a := by simp

/-- Behind the bits held, ACC is 0. -/
theorem EncCursor.Holds.acc_clear {c : EncCursor} {bs : List Bool} (h : c.Holds bs) {i : Nat} (behind : i ≤ c.bitpos) :
    c.acc.getLsbD i = false := by
  have bitpos := h.bitpos
  have flushed := h.flushed
  have here := h.bits (8 * c.out.length + (7 - i))
  rw [byteBit_concat_last _ _ (by omega)] at here
  rw [show i = 7 - (8 * c.out.length + (7 - i)) % 8 by omega, here]
  exact List.getD_eq_default _ _ (by omega)

theorem isStream_of_room {c : EncCursor} {bs : List Bool} (h : c.Holds bs) (long : 8 ≤ bs.length)
    (room : bs.length % 8 < 6) :
    IsStream (c.out ++ [c.acc ||| BitVec.ofNat 8 (7 - c.bitpos + 2)]) bs := by
  have bitpos := h.bitpos
  have flushed := h.flushed
  have length : (c.out ++ [c.acc ||| BitVec.ofNat 8 (7 - c.bitpos + 2)]).length = bs.length / 8 + 1 := by
    rw [List.length_append, flushed]; rfl
  refine ⟨by rw [length, streamBytes, if_pos room], fun p inside => ?_, ?_⟩
  · rw [length] at inside
    rw [← h.bits]
    by_cases last : p / 8 = c.out.length
    · rw [byteBit_concat_last _ _ last, byteBit_concat_last _ _ last, BitVec.getLsbD_or,
        getLsbD_ofNat_of_lt (by omega) (by omega), Bool.or_false]
    · exact byteBit_concat_of_ne last
  · rw [length, Nat.add_sub_cancel, ← flushed, getD_concat_length,
      toNat_or_mod_eight (fun i low => h.acc_clear (by omega)) (by omega)]
    omega

theorem isStream_of_no_room {c : EncCursor} {bs : List Bool} (h : c.Holds bs) (noRoom : 6 ≤ bs.length % 8) :
    IsStream (c.out ++ [c.acc] ++ [BitVec.ofNat 8 ((7 - c.bitpos + 2) % 8)]) bs := by
  have bitpos := h.bitpos
  have flushed := h.flushed
  have whole : (c.out ++ [c.acc]).length = bs.length / 8 + 1 := by rw [List.length_append, flushed]; rfl
  have length : (c.out ++ [c.acc] ++ [BitVec.ofNat 8 ((7 - c.bitpos + 2) % 8)]).length = bs.length / 8 + 2 := by
    rw [List.length_append, whole]; rfl
  refine ⟨by rw [length, streamBytes, if_neg (by omega)], fun p inside => ?_, ?_⟩
  · rw [length] at inside
    rw [← h.bits, ← byteBit_concat_zero (c.out ++ [c.acc])]
    by_cases last : p / 8 = (c.out ++ [c.acc]).length
    · rw [byteBit_concat_last _ _ last, byteBit_concat_last _ _ last, getLsbD_ofNat_of_lt (by omega) (by omega)]
      simp
    · exact byteBit_concat_of_ne last
  · rw [length, show bs.length / 8 + 2 - 1 = (c.out ++ [c.acc]).length by omega,
      getD_concat_length, BitVec.toNat_ofNat]
    omega

theorem emitTrailer_room {cap : Nat} {c : EncCursor} (room : 7 - c.bitpos < 6) :
    emitTrailer cap c = flush cap (c.acc ||| BitVec.ofNat 8 (7 - c.bitpos + 2)) c := if_pos room

theorem emitTrailer_no_room {cap : Nat} {c : EncCursor} (noRoom : ¬7 - c.bitpos < 6) :
    emitTrailer cap c = (flush cap c.acc c).bind (flush cap (BitVec.ofNat 8 ((7 - c.bitpos + 2) % 8))) := by
  simp only [emitTrailer, if_neg noRoom]
  cases flush cap c.acc c <;> rfl

/-- The trailer completes the stream, if all of its bytes fit in `cap` elements. -/
theorem emitTrailer_of_fits {cap : Nat} {bs : List Bool} {c : EncCursor} (h : c.Holds bs) (long : 8 ≤ bs.length)
    (fits : streamBytes bs.length ≤ cap) : ∃ c', emitTrailer cap c = .ok c' ∧ IsStream c'.out bs := by
  have bitpos := h.bitpos
  have flushed := h.flushed
  unfold streamBytes at fits
  split at fits
  case isTrue room =>
    rw [emitTrailer_room (by omega), flush_of_lt (by omega)]
    exact ⟨_, rfl, isStream_of_room h long room⟩
  case isFalse noRoom =>
    rw [emitTrailer_no_room (by omega), flush_of_lt (by omega)]
    refine ⟨_, flush_of_lt ?_ _, isStream_of_no_room h (by omega)⟩
    simp only [List.length_append, List.length_singleton]
    omega

theorem emitTrailer_of_full {cap : Nat} {bs : List Bool} {c : EncCursor} (h : c.Holds bs)
    (fits : bs.length / 8 ≤ cap) (full : cap < streamBytes bs.length) :
    emitTrailer cap c = .error (obufFull cap) := by
  have bitpos := h.bitpos
  have flushed := h.flushed
  unfold streamBytes at full
  split at full
  case isTrue room => rw [emitTrailer_room (by omega), flush_of_full (by omega)]
  case isFalse noRoom =>
    rw [emitTrailer_no_room (by omega)]
    by_cases now : c.out.length = cap
    · rw [flush_of_full now]; rfl
    · rw [flush_of_lt (by omega)]
      refine flush_of_full ?_ _
      simp only [List.length_append, List.length_singleton]
      omega

/-! ### The stream (R310) -/

section Stream
variable {cap : Nat} {t : Tree} {codes : List CodeEntry} {text : List Word}

theorem div_eight_le_streamBytes (stop : Nat) : stop / 8 ≤ streamBytes stop := by
  unfold streamBytes
  split <;> omega

theorem serialize_of_fits (coded : ∀ x ∈ text, Coded codes x)
    (fits : streamBytes (t.bits ++ text.flatMap (codeBitsOf codes)).length ≤ cap) :
    ∃ bytes, IsStream bytes (t.bits ++ text.flatMap (codeBitsOf codes)) ∧
      serialize cap t codes text = .ok ⟨bytes, t.bits.length, (text.flatMap (codeBitsOf codes)).length⟩ := by
  obtain ⟨c, emitted, holds⟩ := (emitTreeAndText_emits coded).eq_ok ((div_eight_le_streamBytes _).trans fits)
  have long : 8 ≤ (t.bits ++ text.flatMap (codeBitsOf codes)).length := by
    have tree := t.length_bits_succ
    have nodes := t.size_succ
    rw [List.length_append]
    omega
  obtain ⟨c', trailer, stream⟩ := emitTrailer_of_fits holds long fits
  refine ⟨c'.out, stream, ?_⟩
  rw [serialize_eq, emitted]
  simp [Except.bind, Except.map, trailer, holds.nbits]

theorem serialize_of_full (coded : ∀ x ∈ text, Coded codes x)
    (full : cap < streamBytes (t.bits ++ text.flatMap (codeBitsOf codes)).length) :
    serialize cap t codes text = .error (obufFull cap) := by
  obtain ⟨fits, c, emitted, holds⟩ | ⟨-, failed⟩ := emitTreeAndText_emits (cap := cap) (t := t) coded
  · rw [serialize_eq, emitted]
    simp [Except.bind, Except.map, emitTrailer_of_full holds fits full]
  · exact serialize_of_error failed

/-- An error of the payload loop at the character that it has come to. -/
theorem serialize_of_error_at {xs : List Word} {e : CmdError} {i : Nat} (coded : ∀ x ∈ text, Coded codes x)
    (here : text.length = i) (fits : (t.bits ++ text.flatMap (codeBitsOf codes)).length / 8 ≤ cap)
    (failed : ∀ c, emitText cap codes i xs c = .error e) :
    serialize cap t codes (text ++ xs) = .error e := by
  obtain ⟨c, emitted, -⟩ := (emitTreeAndText_emits coded).eq_ok fits
  refine serialize_of_error ?_
  rw [emitTreeAndText_append coded, emitted, here]
  exact failed c

theorem serialize_of_full_at (coded : ∀ x ∈ text, Coded codes x)
    (full : cap < (t.bits ++ text.flatMap (codeBitsOf codes)).length / 8) (xs : List Word) :
    serialize cap t codes (text ++ xs) = .error (obufFull cap) := by
  refine serialize_of_error ?_
  rw [emitTreeAndText_append coded, (emitTreeAndText_emits coded).eq_error full]
  rfl

/-- A stream is made only of a text of coded characters; `T` and `P` are the lengths of its regions. -/
theorem serialize_ok {r : Stream} (h : serialize cap t codes text = .ok r) :
    (∀ x ∈ text, Coded codes x) ∧ r.treeLen = t.bits.length ∧
      r.payloadLen = (text.flatMap (codeBitsOf codes)).length := by
  have coded : ∀ x ∈ text, Coded codes x := by
    rw [serialize_eq] at h
    unfold emitTreeAndText at h
    cases tree : emitBits cap t.bits EncCursor.start with
    | error e => rw [tree] at h; cases h
    | ok c1 =>
      cases payload : emitText cap codes 0 text c1 with
      | error e => rw [tree] at h; simp [Except.bind, payload] at h
      | ok c2 => exact coded_of_emitText payload
  obtain full | fits := Nat.lt_or_ge cap (streamBytes (t.bits ++ text.flatMap (codeBitsOf codes)).length)
  · cases (serialize_of_full coded full).symm.trans h
  · obtain ⟨bytes, -, stream⟩ := serialize_of_fits coded fits
    cases stream.symm.trans h
    exact ⟨coded, rfl, rfl⟩

end Stream

end Sys2Proof.Machine
end

section
/-! SERIALIZE writes the stream, or reports the first error (44_encoder.md R310 to R316). -/

namespace Sys2Proof.Machine

/-! ### A stream in OBUF (R315) -/

section Installed
variable (m : Memory) (bytes : List Byte)

/-- OBUF once the bytes of a stream are written, one an element. -/
def writeStream : Memory := m.writeWords 0 (bytes.map fun b => b.setWidth 32)

theorem installStream_obuf_eq (r : Stream) (s : State) : (installStream r s).obuf = writeStream s.obuf r.bytes := rfl

theorem ibufWord_writeStream {k : Nat} (inside : k < bytes.length) :
    ibufWord (writeStream m bytes) k = bytes[k].setWidth 32 := by
  have word := readWord_writeWords m 0 (bytes.map fun b => b.setWidth 32) k (by simpa using inside)
  rwa [Nat.zero_add, List.getElem_map] at word

theorem toNat_ibufWord_writeStream {k : Nat} (inside : k < bytes.length) :
    (ibufWord (writeStream m bytes) k).toNat = (bytes.getD k 0).toNat := by
  have byte := bytes[k].isLt
  rw [ibufWord_writeStream m bytes inside, List.getD_eq_getElem _ _ inside, BitVec.toNat_setWidth]
  omega

theorem streamBit_writeStream {p : Nat} (inside : p < 8 * bytes.length) :
    streamBit (writeStream m bytes) p = byteBit bytes p := by
  have element : p / 8 < bytes.length := by omega
  have width : 7 - p % 8 < 32 := by omega
  rw [streamBit, byteBit, ibufWord_writeStream m bytes element, List.getD_eq_getElem _ _ element]
  simp [width]

theorem IsStream.stopOf_eq {bytes : List Byte} {bs : List Bool} (h : IsStream bytes bs) :
    stopOf (writeStream m bytes) bytes.length = bs.length := by
  have positive : 0 < bytes.length := by
    rw [h.length, streamBytes]
    split <;> omega
  rw [stopOf, toNat_ibufWord_writeStream m bytes (by omega)]
  exact h.stop

theorem IsStream.length_le {bytes : List Byte} {bs : List Bool} (h : IsStream bytes bs) :
    bs.length ≤ 8 * bytes.length - 3 := by
  rw [h.length, streamBytes]
  split <;> omega

theorem IsStream.map_streamBit {bytes : List Byte} {bs : List Bool} (h : IsStream bytes bs) :
    (List.range bs.length).map (streamBit (writeStream m bytes)) = bs := by
  have behind := h.length_le
  refine List.ext_getElem (by simp) fun p _ inside => ?_
  rw [List.getElem_map, List.getElem_range, streamBit_writeStream m bytes (by omega), h.bits p (by omega),
    List.getD_eq_getElem _ _ inside]

theorem IsStream.padding {bytes : List Byte} {bs : List Bool} (h : IsStream bytes bs) {p : Nat} (behind : bs.length ≤ p)
    (inside : p < 8 * bytes.length - 3) : streamBit (writeStream m bytes) p = false := by
  rw [streamBit_writeStream m bytes (by omega), h.bits p inside]
  exact List.getD_eq_default _ _ behind

end Installed

/-! ### How SERIALIZE ends -/

/-- SERIALIZE passes its register checks and begins the stream of the tree `t` with the code table `codes` (R310). -/
structure State.Serializes (s : State) (t : Tree) (codes : List CodeEntry) : Prop where
  ready : missingMask s = 0
  tree : s.tree = some t
  table : codes = codeEntries s.code s.codeN.toNat
  text : s.inLen ≠ 0
  fits : s.inLen.toNat ≤ s.cfg.inCap

section Ends
variable {s : State} {t : Tree} {codes : List CodeEntry}

theorem serializeBody_of_ok {r : Stream} (h : s.Serializes t codes)
    (stream : serialize s.cfg.outCap t codes s.text = .ok r) : serializeBody s = .ok (installStream r s) := by
  obtain ⟨ready, tree, rfl, text, fits⟩ := h
  rw [State.text] at stream
  rw [serializeBody, if_neg (not_not_intro ready), if_neg (Nat.not_lt.mpr fits), if_neg text, tree]
  simp only [stream]

theorem serializeBody_of_error {e : CmdError} (h : s.Serializes t codes)
    (failed : serialize s.cfg.outCap t codes s.text = .error e) : serializeBody s = .raised e (outputFailed s) := by
  obtain ⟨ready, tree, rfl, text, fits⟩ := h
  rw [State.text] at failed
  rw [serializeBody, if_neg (not_not_intro ready), if_neg (Nat.not_lt.mpr fits), if_neg text, tree]
  simp only [failed]

/-- How SERIALIZE completes with an error (60_exceptions.md R415). -/
theorem exec_serialize_of_raised {u : State} {e : CmdError} (h : serializeBody s = .raised e u) :
    ∃ u, exec .serialize s = .next u ∧ u.FailedWith e.code e.args.1 e.args.2.1 e.args.2.2 :=
  ⟨errorComplete e u, by rw [exec_serialize, h, finish_raised], rfl, rfl, rfl, rfl, rfl, rfl, rfl⟩

end Ends

/-- Settles O37: the cursor holds the bits of both regions, and the trailer makes them a stream. -/
theorem serializeWritesTheStream : Obligations.SerializeWritesTheStream := by
  intro s t codes bits wf tree codesUp held table positive fits coded hbits room
  obtain ⟨-, -, ⟨-, outCap⟩, -⟩ := wf
  have ready : missingMask s = 0 := (missingMask_eq_zero s).mpr ⟨tree, codesUp⟩
  have text : s.inLen ≠ 0 := fun zero => by simp [zero] at positive
  subst hbits
  obtain ⟨bytes, stream, serialized⟩ := serialize_of_fits coded room
  have next := serializeBody_of_ok ⟨ready, held, table, text, fits⟩ serialized
  refine ⟨_, by rw [exec_serialize, next, finish_ok], rfl, ?_⟩
  have length := stream.length
  have inside := stream.length_le
  have sum : (t.bits ++ s.text.flatMap (codeBitsOf codes)).length =
      t.bits.length + (s.text.flatMap (codeBitsOf codes)).length := List.length_append
  have outLen : (BitVec.ofNat 32 bytes.length).toNat = bytes.length := Nat.mod_eq_of_lt (by omega)
  have treeBits : (BitVec.ofNat 32 t.bits.length).toNat = t.bits.length := Nat.mod_eq_of_lt (by omega)
  simp only [complete_obuf, complete_outLen, complete_treeBits, complete_payloadBits, complete_stopPos,
    installStream_obuf_eq, installStream_outLen, installStream_treeBits, installStream_payloadBits,
    installStream_stopPos, outLen, treeBits, BitVec.toNat_ofNat]
  refine ⟨length, trivial, ?payload, ?stop, ?tree, stream.map_streamBit s.obuf, fun p => stream.padding s.obuf,
    stream.stopOf_eq s.obuf, fun k here => ?byte, fun b behind => ?frame⟩
  case payload => omega
  case stop => omega
  case tree => have leaves := t.length_bits_succ; omega
  case byte =>
    rw [toNat_ibufWord_writeStream s.obuf bytes here]
    exact BitVec.isLt _
  case frame => exact readByte_writeWords_outside _ _ (.inr (by simpa using behind))

/-- How SERIALIZE completes when the stream cannot be made. -/
theorem exec_serialize_of_error {s : State} {t : Tree} {codes : List CodeEntry} {e : CmdError}
    (h : s.Serializes t codes) (failed : serialize s.cfg.outCap t codes s.text = .error e) :
    ∃ u, exec .serialize s = .next u ∧ u.FailedWith e.code e.args.1 e.args.2.1 e.args.2.2 :=
  exec_serialize_of_raised (serializeBody_of_error h failed)

/-- Settles O38: the registers are checked in order, and the first character that does not go in decides. -/
theorem serializeReportsTheFirstError : Obligations.SerializeReportsTheFirstError := by
  intro s wf
  have up (tree : s.treeValid = true) (codesUp : s.codesValid = true) : missingMask s = 0 :=
    (missingMask_eq_zero s).mpr ⟨tree, codesUp⟩
  refine ⟨fun missing => ?flags, fun tree codesUp long => ?long, fun tree codesUp zero => ?empty,
    fun t codes bits i c tree codesUp held table fits here coded hbits => ?character,
    fun t codes bits tree codesUp held table text fits coded hbits full => ?stream⟩
  case flags =>
    have notReady : missingMask s ≠ 0 := by
      rw [Ne, missingMask_eq_zero]
      rintro ⟨tree, codesUp⟩
      simp [tree, codesUp] at missing
    exact exec_serialize_of_raised (if_pos notReady)
  case long =>
    have raised : serializeBody s = .raised (.capacity 1 s.inLen.toNat s.cfg.inCap) (outputFailed s) := by
      rw [serializeBody, if_neg (not_not_intro (up tree codesUp)), if_pos long]
    simpa [CmdError.code, CmdError.args] using exec_serialize_of_raised raised
  case empty =>
    have raised : serializeBody s = .raised .emptyInput (outputFailed s) := by
      rw [serializeBody, if_neg (not_not_intro (up tree codesUp)), if_neg (by simp [zero]), if_pos zero]
    exact exec_serialize_of_raised raised
  case character =>
    subst hbits
    obtain ⟨inside, element⟩ := List.getElem?_eq_some_iff.mp here
    have length : (s.text.take i).length = i := List.length_take_of_le inside.le
    have text : s.inLen ≠ 0 := fun zero => by
      rw [s.length_text, zero] at inside
      exact absurd inside (Nat.not_lt_zero i)
    have split : s.text = s.text.take i ++ c :: s.text.drop (i + 1) := by
      rw [← element, ← List.drop_eq_getElem_cons inside, List.take_append_drop]
    have fails {e : CmdError} (failed : serialize s.cfg.outCap t codes
        (s.text.take i ++ c :: s.text.drop (i + 1)) = .error e) :=
      exec_serialize_of_error ⟨up tree codesUp, held, table, text, fits⟩ (by rw [split]; exact failed)
    refine ⟨fun room => ⟨fun invalid => ?_, fun valid uncoded => ?_⟩, fun full => ?_⟩
    · exact fails (serialize_of_error_at coded length room (emitText_invalid invalid _))
    · exact fails (serialize_of_error_at coded length room (emitText_uncoded valid uncoded _))
    · exact fails (serialize_of_full_at coded full _)
  case stream =>
    subst hbits
    exact exec_serialize_of_error ⟨up tree codesUp, held, table, text, fits⟩ (serialize_of_full coded full)

end Sys2Proof.Machine
end

section
/-! ENCODE is the four commands (44_encoder.md R320): a command run over the completion of the one before does what its
body does over the state before that completion. -/

namespace Sys2Proof.Machine

/-! ### A body run over a completed state -/

/-- The state a body ends in, completed (R205). -/
def Stage.completed : Stage → Stage
  | .ok s => .ok (complete s)
  | .raised e s => .raised e (complete s)
  | .stuck f => .stuck f

theorem finish_completed (g : Stage) : finish g.completed = finish g := by cases g <;> rfl

theorem encodeFailed_completed (g : Stage) : g.completed.encodeFailed = g.encodeFailed.completed := by cases g <;> rfl

/-- A body run over a completed state ends as over the state before, but for the completion. -/
def CompletionBlind (f : State → Stage) : Prop := ∀ s : State, f (complete s) = (f s).completed

theorem CompletionBlind.andThen {f g : State → Stage} (hf : CompletionBlind f) (hg : CompletionBlind g) :
    CompletionBlind fun s => (f s).andThen g := by
  intro s
  show (f (complete s)).andThen g = ((f s).andThen g).completed
  rw [hf s]
  cases f s with
  | ok u => exact hg u
  | raised e u => rfl
  | stuck k => rfl

/-- A branch whose condition does not read BUSY or DONE. -/
theorem ite_completed {c : Prop} [Decidable c] {a a' b b' : Stage} (ha : a' = a.completed) (hb : b' = b.completed) :
    (if c then a' else b') = (if c then a else b).completed := by
  split
  · exact ha
  · exact hb

theorem buildBody_completionBlind : CompletionBlind buildBody := by
  intro s
  show buildFrom (complete (clearTree s)) = (buildFrom (clearTree s)).completed
  unfold buildFrom
  refine ite_completed rfl (ite_completed rfl ?_)
  simp only [complete_freqN, complete_freq]
  split <;> rfl

theorem gencodesBody_completionBlind : CompletionBlind gencodesBody := by
  intro s
  show gencodesFrom (complete (clearCodes s)) = (gencodesFrom (clearCodes s)).completed
  have tree : (complete (clearCodes s)).tree = (clearCodes s).tree := rfl
  unfold gencodesFrom
  refine ite_completed rfl ?_
  simp only [complete_cfg, tree]
  split
  · rfl
  · split <;> rfl

theorem serializeBody_completionBlind : CompletionBlind serializeBody := by
  intro s
  have tree : (complete s).tree = s.tree := rfl
  unfold serializeBody
  refine ite_completed rfl (ite_completed rfl (ite_completed rfl ?_))
  simp only [complete_cfg, complete_inLen, complete_ibuf, complete_code, complete_codeN, tree]
  split
  · rfl
  · split <;> rfl

/-! ### One command behind another -/

theorem andThen_assoc (g : Stage) (f f' : State → Stage) :
    (g.andThen f).andThen f' = g.andThen fun s => (f s).andThen f' := by cases g <;> rfl

/-- What is left of ENCODE behind a stage: `rest` does what the bodies `f` do, ENCODE's error effects with them, in
every state that is not in error. -/
def RunsAs (rest : State → Host.Outcome State Fault Refusal) (f : State → Stage) : Prop :=
  ∀ s : State, s.err = false → rest s = finish (f s).encodeFailed

theorem err_complete_of_keepsErrRecord {s u : State} (kept : (Stage.ok u).KeepsErrRecord s) (noErr : s.err = false) :
    (complete u).err = false := (congrArg Prod.fst (kept u rfl)).trans noErr

theorem thenCommand_of_noErr {s : State} (noErr : s.err = false) (rest : State → Host.Outcome State Fault Refusal) :
    thenCommand (.next s) rest = rest s := if_neg (by rw [noErr]; exact Bool.false_ne_true)

/-- The last command of ENCODE. -/
theorem thenCommand_next {s : State} {g : Stage} (kept : g.KeepsErrRecord s) (noErr : s.err = false) :
    thenCommand (finish g) .next = finish g.encodeFailed := by
  cases g with
  | ok u => exact thenCommand_of_noErr (err_complete_of_keepsErrRecord kept noErr) _
  | raised e u => rfl
  | stuck k => rfl

/-- A command of ENCODE, with the rest behind it. -/
theorem thenCommand_eq_finish {s : State} {g : Stage} {f : State → Stage}
    {rest : State → Host.Outcome State Fault Refusal} (kept : g.KeepsErrRecord s) (noErr : s.err = false)
    (blind : CompletionBlind f) (h : RunsAs rest f) :
    thenCommand (finish g) rest = finish (g.andThen f).encodeFailed := by
  cases g with
  | ok u =>
    have still := err_complete_of_keepsErrRecord kept noErr
    rw [finish_ok, thenCommand_of_noErr still, h _ still, blind, encodeFailed_completed, finish_completed, andThen_ok]
  | raised e u => rfl
  | stuck k => rfl

/-- Settles O39: behind each stage the rest of ENCODE is the rest of the four commands. -/
theorem encodeIsTheFourCommands : Obligations.EncodeIsTheFourCommands := by
  have serializing : RunsAs (fun s3 => thenCommand (exec .serialize s3) .next) serializeBody :=
    fun s noErr => thenCommand_next (serializeBody_keepsErrRecord s) noErr
  have generating : RunsAs (fun s2 => thenCommand (exec .gencodes s2) fun s3 => thenCommand (exec .serialize s3) .next)
      fun s => (gencodesBody s).andThen serializeBody := fun s noErr =>
    thenCommand_eq_finish (gencodesBody_keepsErrRecord s) noErr serializeBody_completionBlind serializing
  have building : RunsAs
      (fun s1 => thenCommand (exec .build s1) fun s2 =>
        thenCommand (exec .gencodes s2) fun s3 => thenCommand (exec .serialize s3) .next)
      fun s => (buildBody s).andThen fun s => (gencodesBody s).andThen serializeBody := fun s noErr =>
    thenCommand_eq_finish (buildBody_keepsErrRecord s) noErr
      (gencodesBody_completionBlind.andThen serializeBody_completionBlind) generating
  intro s noErr
  have counting := thenCommand_eq_finish (countBody_keepsErrRecord s) noErr
    (buildBody_completionBlind.andThen (gencodesBody_completionBlind.andThen serializeBody_completionBlind)) building
  rw [exec_encode, encodeBody, andThen_assoc, andThen_assoc]
  exact counting.symm

end Sys2Proof.Machine
end

section
/-! ENCODE completes with the four stages' results, and PAYLOAD_BITS is the weighted code length
(44_encoder.md R320, R321). -/

namespace Sys2Proof.Machine

/-! ### COUNT's table is what BUILD requires (R260) -/

theorem freqOk_installFreq {s : State} {tab : List FreqEntry} (wf : s.cfg.wf) (nonempty : tab ≠ [])
    (few : tab.length ≤ s.cfg.nSym) (valid : ∀ e ∈ tab, validCodePoint e.sym = true) (sorted : Ascending tab) :
    (installFreq tab s).FreqOk := by
  obtain ⟨⟨-, nSym⟩, -⟩ := wf
  have freqN : (BitVec.ofNat 32 tab.length).toNat = tab.length := Nat.mod_eq_of_lt (by omega)
  unfold State.FreqOk
  simp only [installFreq_freqN, installFreq_freq, installFreq_cfg, freqN, freqEntry_ofWords]
  refine ⟨List.length_pos_iff.mpr nonempty, few, fun i hi => ?_, fun i hi => ?_⟩
  · rw [List.getD_eq_getElem _ _ hi]
    exact valid _ (List.getElem_mem hi)
  · rw [List.getD_eq_getElem _ _ hi, List.getD_eq_getElem _ _ (Nat.lt_of_succ_lt hi)]
    exact List.pairwise_iff_getElem.mp sorted i (i + 1) _ hi (Nat.lt_succ_self i)

theorem buildBody_of_freqOk {s : State} (h : s.FreqOk) :
    buildBody s = .ok (installTree (buildNodes (freqEntries s.freq s.freqN.toNat)).1
      (buildNodes (freqEntries s.freq s.freqN.toNat)).2 (clearTree s)) := by
  obtain ⟨⟨positive, few⟩, checked⟩ := freqOk_iff.mp h
  have nonzero : s.freqN ≠ 0 := fun zero => by simp [zero] at positive
  obtain ⟨zero, -⟩ | ⟨-, many, -⟩ | ⟨e, -, -, failed, -⟩ | ⟨-, -, -, body⟩ := buildFrom_cases (clearTree s)
  · exact absurd zero nonzero
  · exact absurd few (Nat.not_le.mpr many)
  · cases failed.symm.trans checked
  · exact body

/-- A tree built of `n` entries has `n` leaves (R265). -/
theorem leaves_of_builtTree {cap : Nat} {tab : List FreqEntry} {t : Tree} (nonempty : tab ≠ [])
    (small : tab.length ≤ 2 ^ 18) (enough : 2 * tab.length - 1 ≤ cap) (built : builtTree cap tab = some t) :
    t.leaves = tab.length := by
  obtain ⟨length, t', is, holds, all⟩ := buildNodes_oneTree nonempty (by omega : tab.length ≤ 2 ^ 31)
  have reached : is.length = (buildNodes tab).1.length := by simpa using all.length_eq
  have nodes : (reachedNodes (nodeMemory (buildNodes tab).1) cap (buildNodes tab).2).length + 1 = 2 * t.leaves :=
    length_reachedNodes built
  rw [holds.reachedNodes_eq (by omega)] at nodes
  omega

/-! ### The four bodies one after the other (R320) -/

/-- Where BUILD ends behind COUNT, the text having the table `tab`. -/
def treeState (tab : List FreqEntry) (s : State) : State :=
  installTree (buildNodes tab).1 (buildNodes tab).2 (clearTree (installFreq tab s))

@[simp] theorem treeState_cfg (tab : List FreqEntry) (s : State) : (treeState tab s).cfg = s.cfg := rfl

@[simp] theorem treeState_inLen (tab : List FreqEntry) (s : State) : (treeState tab s).inLen = s.inLen := rfl

@[simp] theorem treeState_text (tab : List FreqEntry) (s : State) : (treeState tab s).text = s.text := rfl

@[simp] theorem treeState_treeValid (tab : List FreqEntry) (s : State) : (treeState tab s).treeValid = true := rfl

section Stages
variable {s : State} {tab : List FreqEntry} {t : Tree} {cs : List CodeEntry} {r : Stream}

/-- The sizes of what the stages compute (R8, R265, R290). -/
theorem encoded_sizes (wf : s.cfg.wf) (counted : countText s.cfg.nSym 0 s.text [] = .ok tab) (nonempty : tab ≠ [])
    (built : builtTree s.cfg.nodeCap tab = some t) (table : codeTable s.cfg.lMax t = .ok cs) :
    tab.length ≤ 2 ^ 18 ∧ t.leaves = tab.length ∧ cs.length = tab.length := by
  have few : tab.length ≤ s.cfg.nSym := countText_length_le List.Pairwise.nil (Nat.zero_le _) counted
  obtain ⟨⟨-, nSym⟩, -⟩ := wf
  have leaves := leaves_of_builtTree nonempty (few.trans nSym) (by unfold Config.nodeCap; omega) built
  exact ⟨few.trans nSym, leaves, (length_codeTable table).trans leaves⟩

/-- COUNT and BUILD of a text that is not empty. -/
theorem countBody_andThen_buildBody (wf : s.cfg.wf) (fits : s.inLen.toNat ≤ s.cfg.inCap)
    (counted : countText s.cfg.nSym 0 s.text [] = .ok tab) (nonempty : tab ≠ []) :
    (countBody s).andThen buildBody = .ok (treeState tab s) := by
  have few : tab.length ≤ s.cfg.nSym := countText_length_le List.Pairwise.nil (Nat.zero_le _) counted
  have count : countBody s = .ok (installFreq tab s) := by
    rw [State.text] at counted
    simp [countBody, counted, Nat.not_lt.mpr fits]
  obtain ⟨valid, rfl⟩ := countText_ok (read := []) counted
  have freqOk := freqOk_installFreq wf nonempty few (fun e he => valid _ (sym_mem_of_mem_tally he))
    (ascending_tally s.text)
  obtain ⟨⟨-, nSym⟩, -⟩ := wf
  rw [count, andThen_ok, buildBody_of_freqOk freqOk, installFreq_freq, installFreq_freqN, BitVec.toNat_ofNat,
    Nat.mod_eq_of_lt (by omega), freqEntries_ofWords]
  rfl

/-- The tree that GENCODES and SERIALIZE find is the one built. -/
theorem tree_treeState (nonempty : tab ≠ []) (small : tab.length ≤ 2 ^ 18) :
    (treeState tab s).tree = builtTree s.cfg.nodeCap tab := by
  have last := buildNodes_snd nonempty (by omega)
  have nodes := (buildNodes_oneTree nonempty (by omega)).1
  rw [State.tree, treeState, installTree_root, BitVec.toNat_ofNat, Nat.mod_eq_of_lt (by omega)]
  rfl

/-- GENCODES and SERIALIZE over a valid tree. -/
theorem gencodesBody_andThen_serializeBody (valid : s.treeValid = true) (tree : s.tree = some t)
    (table : codeTable s.cfg.lMax t = .ok cs) (small : cs.length < 2 ^ 32) (text : s.inLen ≠ 0)
    (fits : s.inLen.toNat ≤ s.cfg.inCap) (stream : serialize s.cfg.outCap t cs s.text = .ok r) :
    (gencodesBody s).andThen serializeBody = .ok (installStream r (installCodes cs (clearCodes s))) := by
  have tree' : (clearCodes s).tree = some t := tree
  have generated : gencodesBody s = .ok (installCodes cs (clearCodes s)) := by
    simp [gencodesBody, gencodesFrom, valid, tree', table]
  have entries : cs = codeEntries (installCodes cs (clearCodes s)).code
      (installCodes cs (clearCodes s)).codeN.toNat := by
    rw [installCodes_code, installCodes_codeN, BitVec.toNat_ofNat, Nat.mod_eq_of_lt small, codeEntries_ofWords]
  have ready : missingMask (installCodes cs (clearCodes s)) = 0 := (missingMask_eq_zero _).mpr ⟨valid, rfl⟩
  rw [generated, andThen_ok]
  exact serializeBody_of_ok ⟨ready, tree, entries, text, fits⟩ stream

theorem inLen_ne_zero_of_countText (counted : countText s.cfg.nSym 0 s.text [] = .ok tab) (nonempty : tab ≠ []) :
    s.inLen ≠ 0 := fun zero => by
  have empty : s.text = [] := List.eq_nil_of_length_eq_zero (by rw [s.length_text, zero]; rfl)
  rw [empty] at counted
  cases counted
  exact nonempty rfl

/-- Where ENCODE ends without an error. -/
theorem encodeBody_of_ok (wf : s.cfg.wf) (fits : s.inLen.toNat ≤ s.cfg.inCap)
    (counted : countText s.cfg.nSym 0 s.text [] = .ok tab) (nonempty : tab ≠ [])
    (built : builtTree s.cfg.nodeCap tab = some t) (table : codeTable s.cfg.lMax t = .ok cs)
    (stream : serialize s.cfg.outCap t cs s.text = .ok r) :
    encodeBody s = .ok (installStream r (installCodes cs (clearCodes (treeState tab s)))) := by
  obtain ⟨small, -, length⟩ := encoded_sizes wf counted nonempty built table
  have coding : (gencodesBody (treeState tab s)).andThen serializeBody =
      .ok (installStream r (installCodes cs (clearCodes (treeState tab s)))) :=
    gencodesBody_andThen_serializeBody (treeState_treeValid tab s) ((tree_treeState nonempty small).trans built)
      (by rwa [treeState_cfg]) (by omega)
      (by rw [treeState_inLen]; exact inLen_ne_zero_of_countText counted nonempty)
      (by rwa [treeState_inLen, treeState_cfg]) (by rwa [treeState_cfg, treeState_text])
  rw [encodeBody, andThen_assoc, countBody_andThen_buildBody wf fits counted nonempty, andThen_ok, coding]
  rfl

end Stages

/-! ### The weighted code length (R321) -/

/-- A sum over the text, counted by characters. -/
theorem sum_map_text {text : List Word} (short : text.length < 2 ^ 32) (f : Word → Nat) :
    (text.map f).sum = ((tally text).map fun e => e.count.toNat * f e.sym).sum :=
  calc (text.map f).sum
    _ = (text.dedup.map fun c => text.count c * f c).sum := by
      have same : text.dedup.toFinset = text.toFinset := Finset.ext fun c => by simp
      simp only [Finset.sum_list_map_count, ← List.sum_toFinset _ text.nodup_dedup, same, smul_eq_mul]
    _ = (((tally text).map FreqEntry.sym).map fun c => text.count c * f c).sum :=
      ((map_sym_tally_perm text).map _).sum_eq.symm
    _ = ((tally text).map fun e => e.count.toNat * f e.sym).sum := by
      rw [List.map_map]
      exact congrArg List.sum (List.map_congr_left fun e he => by
        rw [toNat_count_of_mem_tally short he]; rfl)

section Weights
variable {tab : List FreqEntry} {cs : List CodeEntry}

/-- With as many codes as characters, each character having a code, the two tables name the same characters. -/
theorem map_sym_eq (sorted : Ascending tab) (ascending : cs.Pairwise fun d e => d.sym.toNat < e.sym.toNat)
    (length : cs.length = tab.length) (coded : ∀ e ∈ tab, ∃ c ∈ cs, c.sym = e.sym) :
    tab.map FreqEntry.sym = cs.map CodeEntry.sym := by
  have less : (tab.map FreqEntry.sym).Pairwise fun c d => c.toNat < d.toNat := List.pairwise_map.mpr sorted
  have less' : (cs.map CodeEntry.sym).Pairwise fun c d => c.toNat < d.toNat := List.pairwise_map.mpr ascending
  have distinct : (tab.map FreqEntry.sym).Nodup := less.imp fun lt same => lt.ne (congrArg BitVec.toNat same)
  have subset : tab.map FreqEntry.sym ⊆ cs.map CodeEntry.sym := fun c hc => by
    obtain ⟨e, he, rfl⟩ := List.mem_map.mp hc
    obtain ⟨d, hd, same⟩ := coded e he
    exact List.mem_map.mpr ⟨d, hd, same⟩
  have perm := (List.subperm_of_subset distinct subset).perm_of_length_le (by simp [length])
  exact perm.eq_of_pairwise (fun c d _ _ lt gt => absurd (lt.trans gt) (Nat.lt_irrefl _)) less less'

theorem codeBitsOf_sym (ascending : cs.Pairwise fun d e => d.sym.toNat < e.sym.toNat) {e : CodeEntry} (mem : e ∈ cs) :
    codeBitsOf cs e.sym = e.bits := by
  obtain ⟨d, found⟩ := Option.isSome_iff_exists.mp
    (List.find?_isSome (p := fun d => d.sym = e.sym) |>.mpr ⟨e, mem, by simp⟩)
  have same : d.sym = e.sym := by simpa using List.find?_some found
  have distinct : (cs.map CodeEntry.sym).Nodup :=
    List.pairwise_map.mpr (ascending.imp fun lt same => lt.ne (congrArg BitVec.toNat same))
  rw [codeBitsOf, found, List.inj_on_of_nodup_map distinct (List.mem_of_find?_eq_some found) mem same]
  rfl

theorem CodeEntry.length_bits (e : CodeEntry) : e.bits.length = e.len.toNat := by simp [CodeEntry.bits]

theorem map_weights_eq_zipWith (ascending : cs.Pairwise fun d e => d.sym.toNat < e.sym.toNat)
    (syms : tab.map FreqEntry.sym = cs.map CodeEntry.sym) :
    tab.map (fun e => e.count.toNat * (codeBitsOf cs e.sym).length) =
      List.zipWith (fun e c => e.count.toNat * c.len.toNat) tab cs := by
  have length : tab.length = cs.length := by simpa using congrArg List.length syms
  refine List.ext_getElem (by simp [length]) fun i inside inside' => ?_
  rw [List.length_map] at inside
  have here : tab[i].sym = cs[i].sym := by
    simpa [inside, length ▸ inside] using congrArg (fun l => l[i]?) syms
  rw [List.getElem_map, List.getElem_zipWith, here, codeBitsOf_sym ascending (List.getElem_mem _),
    CodeEntry.length_bits]

end Weights

/-- Settles O40: each body succeeds as its computation does, and the payload is the codes of the text, counted by
characters. -/
theorem encodeCompletesWithAllResults : Obligations.EncodeCompletesWithAllResults := by
  intro s tab t cs r wf fits counted nonempty built table stream
  obtain ⟨small, leaves, length⟩ := encoded_sizes wf counted nonempty built table
  have body := encodeBody_of_ok wf fits counted nonempty built table stream
  obtain ⟨coded, treeLen, payloadLen⟩ := serialize_ok stream
  obtain ⟨-, max⟩ := lMax_bounds wf
  have nodes := (buildNodes_oneTree nonempty (by omega)).1
  have last := buildNodes_snd nonempty (by omega)
  have bits := t.length_bits_succ
  refine ⟨?next, ?payload⟩
  case next =>
    rw [exec_encode, body, finish_ok, treeState]
    simp only [complete, installStream, installCodes, clearCodes, installTree, clearTree, installFreq, length,
      show (buildNodes tab).1.length = 2 * tab.length - 1 by omega,
      show (buildNodes tab).2 = 2 * tab.length - 2 by omega, show r.treeLen = 34 * tab.length - 1 by omega]
  case payload =>
    have short : s.text.length < 2 ^ 32 := s.length_text ▸ s.inLen.isLt
    have ascending := (isCodeTable_of_codeTable max table).ascending
    obtain ⟨-, rfl⟩ := countText_ok (read := []) counted
    have syms := map_sym_eq (ascending_tally s.text) ascending length fun e he =>
      (coded _ (sym_mem_of_mem_tally he)).2
    calc r.payloadLen
      _ = (s.text.map fun c => (codeBitsOf cs c).length).sum := by rw [payloadLen, List.length_flatMap]
      _ = ((tally s.text).map fun e => e.count.toNat * (codeBitsOf cs e.sym).length).sum := sum_map_text short _
      _ = _ := congrArg List.sum (map_weights_eq_zipWith ascending syms)

end Sys2Proof.Machine
end

section
/-! How DECODE ends, and DECODE of a well-formed stream: its text in OBUF, its tree in the node memory, numbered in
preorder (45_decoder.md R350, R362; 10_state.md R64). -/

namespace Sys2Proof.Machine

/-! ### How DECODE ends (R350) -/

/-- What the three phases answer over the stream in IBUF. -/
def State.decoding (s : State) : Except CmdError Decoded :=
  decodeStream s.cfg (8 * s.inLen.toNat) (streamBit s.ibuf) ((ibufWord s.ibuf (s.inLen.toNat - 1)).toNat % 8)

section Ends
variable {s : State}

theorem decodeBody_of_long (long : s.cfg.inCap < s.inLen.toNat) :
    decodeBody s = .raised (.capacity 1 s.inLen.toNat s.cfg.inCap) (decodeFailed (clearTree s)) := if_pos long

theorem decodeBody_of_error {e : CmdError} (fits : s.inLen.toNat ≤ s.cfg.inCap) (failed : s.decoding = .error e) :
    decodeBody s = .raised e (decodeFailed (clearTree s)) := by
  rw [State.decoding] at failed
  simp [decodeBody, decodeFrom, Nat.not_lt.mpr fits, failed]

theorem decodeBody_of_ok {d : Decoded} (fits : s.inLen.toNat ≤ s.cfg.inCap) (decoded : s.decoding = .ok d) :
    decodeBody s = .ok (installDecoded d (clearTree s)) := by
  rw [State.decoding] at decoded
  simp [decodeBody, decodeFrom, Nat.not_lt.mpr fits, decoded]

theorem exec_decode_of_ok {d : Decoded} (fits : s.inLen.toNat ≤ s.cfg.inCap) (decoded : s.decoding = .ok d) :
    exec .decode s = .next (complete (installDecoded d (clearTree s))) :=
  congrArg finish (decodeBody_of_ok fits decoded)

/-- How DECODE completes with an error (60_exceptions.md R415). -/
theorem exec_decode_of_raised {u : State} {e : CmdError} (h : decodeBody s = .raised e u) :
    ∃ u, exec .decode s = .next u ∧ u.FailedWith e.code e.args.1 e.args.2.1 e.args.2.2 :=
  ⟨errorComplete e u, congrArg finish h, rfl, rfl, rfl, rfl, rfl, rfl, rfl⟩

theorem fits_of_exec_decode {u : State} (next : exec .decode s = .next u) (valid : u.treeValid = true) :
    s.inLen.toNat ≤ s.cfg.inCap := by
  by_contra long
  cases next.symm.trans (congrArg finish (decodeBody_of_long (Nat.lt_of_not_le long)))
  cases valid

end Ends

/-! ### The nodes of a tree in preorder (R354, R362) -/

/-- A node as DECODE leaves it: a Leaf or an Internal node, of weight 0. -/
inductive UnweightedNode : Node → Prop
  | leaf (c : Word) : UnweightedNode (.leaf c 0)
  | internal (a b : Word) : UnweightedNode (.internal a b 0)

theorem Tree.unweighted_nodesFrom (t : Tree) (j : Nat) : ∀ n ∈ t.nodesFrom j, UnweightedNode n := by
  induction t generalizing j with
  | leaf c => exact fun n hn => List.mem_singleton.mp hn ▸ .leaf c
  | node l r ihl ihr =>
    intro n hn
    rcases List.mem_cons.mp hn with rfl | hn
    · exact .internal _ _
    · exact (List.mem_append.mp hn).elim (ihl _ n) (ihr _ n)

/-- What the node memory holds of such a node. -/
theorem UnweightedNode.in_nodeMemory {ns : List Node} {i : Nat} {n : Node} (h : UnweightedNode n)
    (here : ns[i]? = some n) :
    nodeWeight (nodeMemory ns) i = 0 ∧
      (nodeKind (nodeMemory ns) i = 1 ∨ nodeKind (nodeMemory ns) i = 2 ∧ nodeB (nodeMemory ns) i = 0) := by
  cases h with
  | leaf c => exact ⟨nodeWeight_leaf here, .inr ⟨nodeKind_leaf here, nodeB_leaf here⟩⟩
  | internal a b => exact ⟨nodeWeight_internal here, .inl (nodeKind_internal here)⟩

theorem Tree.in_nodeMemory_nodesFrom (t : Tree) {i : Nat} (inside : i < t.size) :
    nodeWeight (nodeMemory (t.nodesFrom 0)) i = 0 ∧ (nodeKind (nodeMemory (t.nodesFrom 0)) i = 1 ∨
      nodeKind (nodeMemory (t.nodesFrom 0)) i = 2 ∧ nodeB (nodeMemory (t.nodesFrom 0)) i = 0) := by
  have inList : i < (t.nodesFrom 0).length := by rwa [t.length_nodesFrom]
  exact (t.unweighted_nodesFrom 0 _ (List.getElem_mem inList)).in_nodeMemory (List.getElem?_eq_getElem inList)

/-- DECODE's nodes hold the stream's tree from node 0 on. -/
theorem Tree.holdsTree_nodesFrom_zero (t : Tree) (small : t.size < 2 ^ 32) :
    HoldsTree (t.nodesFrom 0) 0 t (List.range t.size) := by
  have holds := t.holdsTree_nodesFrom (j := 0) [] [] rfl (by omega)
  rwa [List.nil_append, List.append_nil, ← List.range_eq_range'] at holds

/-! ### The command -/

section Installed
variable (d : Decoded) (s : State)

@[simp] theorem installDecoded_cfg : (installDecoded d s).cfg = s.cfg := rfl
@[simp] theorem installDecoded_node : (installDecoded d s).node = nodeMemory d.nodes := rfl
@[simp] theorem installDecoded_nodeN : (installDecoded d s).nodeN = BitVec.ofNat 32 d.nodes.length := rfl
@[simp] theorem installDecoded_obuf : (installDecoded d s).obuf = s.obuf.writeWords 0 d.text := rfl
@[simp] theorem installDecoded_outLen : (installDecoded d s).outLen = BitVec.ofNat 32 d.text.length := rfl
@[simp] theorem installDecoded_treeBits : (installDecoded d s).treeBits = BitVec.ofNat 32 d.treeLen := rfl
@[simp] theorem installDecoded_payloadBits :
    (installDecoded d s).payloadBits = BitVec.ofNat 32 (d.stop - d.treeLen) := rfl
@[simp] theorem installDecoded_stopPos : (installDecoded d s).stopPos = BitVec.ofNat 32 d.stop := rfl

end Installed

theorem ibufWord_writeWords (m : Memory) {ws : List Word} {i : Nat} (inside : i < ws.length) :
    ibufWord (m.writeWords 0 ws) i = ws[i] := by
  rw [ibufWord, ← Nat.zero_add (4 * i), readWord_writeWords m 0 ws i inside]

/-- Settles O41: DECODE installs the nodes of the stream's tree and the text, and O42 says what it accepts. -/
theorem decodeReadsAWellFormedStream : Obligations.DecodeReadsAWellFormedStream := by
  refine ⟨fun s t text wf fits stream => ?_, fun s u wf next valid => ?_⟩
  · have decoded : s.decoding = .ok _ := (decodeStream_eq_ok_iff wf).mpr ⟨t, text, stream, rfl⟩
    refine ⟨_, exec_decode_of_ok fits decoded, rfl, ?_⟩
    obtain ⟨⟨-, nodes, bits, -⟩, -, -, -, textFits⟩ := stream
    have size := t.size_succ
    have cap := nodeCap_lt wf
    have stop : stopOf s.ibuf s.inLen.toNat < 8 * s.inLen.toNat + 8 := by unfold stopOf; omega
    obtain ⟨-, ⟨-, inCap⟩, ⟨-, outCap⟩, -⟩ := wf
    have holds := t.holdsTree_nodesFrom_zero (by omega)
    have fuel : (List.range t.size).length ≤ s.cfg.nodeCap := by rw [List.length_range]; omega
    have register {k : Nat} (small : k < 2 ^ 32) : (BitVec.ofNat 32 k).toNat = k := Nat.mod_eq_of_lt small
    simp only [complete_cfg, complete_node, complete_nodeN, complete_obuf, complete_outLen, complete_treeBits,
      complete_payloadBits, complete_stopPos, installDecoded_cfg, installDecoded_node, installDecoded_nodeN,
      installDecoded_obuf, installDecoded_outLen, installDecoded_treeBits, installDecoded_payloadBits,
      installDecoded_stopPos, clearTree_cfg, clearTree_obuf, t.length_nodesFrom,
      register (show text.length < 2 ^ 32 by omega), register (show t.size < 2 ^ 32 by omega)]
    refine ⟨trivial, fun i hi => ibufWord_writeWords _ hi, fun b behind => ?frame, holds.readTree_eq fuel, by omega,
      holds.reachedNodes_eq fuel, fun i inside => ?weight, fun i inside => ?kind, fun i behind _ w _ => ?empty,
      register (by omega), register (by omega), register (by omega)⟩
    case frame => exact readByte_writeWords_outside _ _ (.inr (by omega))
    case weight => exact (t.in_nodeMemory_nodesFrom inside).1
    case kind => exact ⟨(t.in_nodeMemory_nodesFrom inside).2, nodeMemory_word0 _ i, nodeMemory_reserved _ i⟩
    case empty => exact nodeMemory_empty (by rwa [t.length_nodesFrom]) w
  · have fits := fits_of_exec_decode next valid
    exact ⟨fits, (decodeAcceptsExactlyWellFormedStreams s wf fits).mpr ⟨u, next, valid⟩⟩

end Sys2Proof.Machine
end

section
/-! DECODE inverts ENCODE: the stream in OBUF is a well-formed stream of the encoder's tree and the text (30_encoding.md
R158; 45_decoder.md R363). -/

namespace Sys2Proof.Machine

/-! ### A well-formed stream depends on its elements only (R50) -/

section Elements
variable {c : Config} {m m' : Memory} {n : Nat} {t : Tree} {text : List Word}

theorem streamBit_congr (same : ∀ k < n, ibufWord m' k = ibufWord m k) {p : Nat} (inside : p < 8 * n) :
    streamBit m' p = streamBit m p := by
  rw [streamBit, streamBit, same _ (by omega)]

theorem TreeRegionOf.congr (same : ∀ k < n, ibufWord m' k = ibufWord m k) (h : TreeRegionOf c m n t) :
    TreeRegionOf c m' n t := by
  obtain ⟨valid, nodes, fits, bits⟩ := h
  refine ⟨valid, nodes, fits, Eq.trans (List.map_congr_left fun p hp => ?_) bits⟩
  exact streamBit_congr same ((List.mem_range.mp hp).trans_le fits)

theorem WellFormedStream.congr (same : ∀ k < n, ibufWord m' k = ibufWord m k) (h : WellFormedStream c m n t text) :
    WellFormedStream c m' n t text := by
  obtain ⟨region, trailer, behind, spells, fits⟩ := h
  have long := t.length_bits_succ
  have leaves := t.size_succ
  have stop : stopOf m' n = stopOf m n := by rw [stopOf, stopOf, same _ (by omega)]
  have inside : stopOf m n ≤ 8 * n := by unfold stopOf; omega
  have payload : payloadOf m' n t = payloadOf m n t := by
    rw [payloadOf, payloadOf, stop]
    refine List.map_congr_left fun k hk => streamBit_congr same ?_
    have short := List.mem_range.mp hk
    omega
  exact ⟨region.congr same, trailer, stop.symm ▸ behind, payload.symm ▸ spells, fits⟩

end Elements

/-! ### The characters of a tree (R291, R292) -/

/-- Every character of a tree has a code. -/
theorem exists_wordOf_of_mem_syms {t : Tree} {c : Word} (h : c ∈ t.syms) : ∃ bs, t.wordOf bs = some c := by
  have path : ∀ u : Tree, c ∈ u.syms → ∃ bs, u.follow bs = some c := by
    intro u hu
    induction u with
    | leaf d => exact ⟨[], by rw [List.mem_singleton.mp hu]; rfl⟩
    | node l r ihl ihr =>
      rcases List.mem_append.mp hu with left | right
      · obtain ⟨bs, found⟩ := ihl left
        exact ⟨false :: bs, found⟩
      · obtain ⟨bs, found⟩ := ihr right
        exact ⟨true :: bs, found⟩
  cases t with
  | leaf d => exact ⟨[false], by rw [List.mem_singleton.mp h]; rfl⟩
  | node l r => exact path _ h

/-- The codes of a text, read with the tree of the code table, spell the text (R153, R291). -/
theorem IsCodeTable.spellsText {lMax : Nat} {t : Tree} {cs : List CodeEntry} (h : IsCodeTable lMax t cs)
    {text : List Word} (coded : ∀ x ∈ text, Coded cs x) : SpellsText t (text.flatMap (codeBitsOf cs)) text := by
  refine ⟨text.map (codeBitsOf cs), rfl, ?_⟩
  rw [List.map_map]
  refine List.map_congr_left fun x hx => ?_
  obtain ⟨-, e, he, rfl⟩ := coded x hx
  rw [Function.comp_apply, codeBitsOf_sym h.ascending he, h.word e he]

/-! ### The stream in OBUF is well-formed (R158) -/

theorem isStream_of_serialize {cap : Nat} {t : Tree} {codes : List CodeEntry} {text : List Word} {r : Stream}
    (h : serialize cap t codes text = .ok r) :
    IsStream r.bytes (t.bits ++ text.flatMap (codeBitsOf codes)) ∧ r.bytes.length ≤ cap := by
  obtain ⟨coded, -⟩ := serialize_ok h
  obtain full | fits := Nat.lt_or_ge cap (streamBytes (t.bits ++ text.flatMap (codeBitsOf codes)).length)
  · cases (serialize_of_full coded full).symm.trans h
  · obtain ⟨bytes, stream, ok⟩ := serialize_of_fits coded fits
    cases ok.symm.trans h
    exact ⟨stream, stream.length.trans_le fits⟩

/-- A tree that fits the node memory, and codes that spell the text behind it. -/
theorem IsStream.wellFormedStream {c : Config} {m : Memory} {bytes : List Byte} {t : Tree} {payload : List Bool}
    {text : List Word} (h : IsStream bytes (t.bits ++ payload)) (valid : ∀ x ∈ t.syms, validCodePoint x = true)
    (nodes : 2 * t.leaves - 1 ≤ c.nodeCap) (spells : SpellsText t payload text) (fits : text.length ≤ c.outCap) :
    WellFormedStream c (writeStream m bytes) bytes.length t text := by
  have stop := h.stopOf_eq m
  have long := h.length_le
  have tree := t.length_bits_succ
  have leaves := t.size_succ
  rw [List.length_append] at stop long
  obtain ⟨region, behind⟩ := readsAt_append.mp (readsAt_iff.mpr (by simpa using h.map_streamBit m) :
    ReadsAt (streamBit (writeStream m bytes)) 0 (t.bits ++ payload))
  have region := readsAt_iff.mp region
  have behind := readsAt_iff.mp behind
  simp only [Nat.zero_add] at region behind
  refine ⟨⟨valid, nodes, by omega, region⟩, by omega, by omega, ?_, fits⟩
  rwa [payloadOf, stop, Nat.add_sub_cancel_left, behind]

/-! ### What ENCODE computes when it succeeds (R320) -/

/-- The four computations of ENCODE on the text, and their results. -/
structure State.Encodes (s : State) (tab : List FreqEntry) (t : Tree) (cs : List CodeEntry) (r : Stream) : Prop where
  fits : s.inLen.toNat ≤ s.cfg.inCap
  counted : countText s.cfg.nSym 0 s.text [] = .ok tab
  nonempty : tab ≠ []
  built : builtTree s.cfg.nodeCap tab = some t
  table : codeTable s.cfg.lMax t = .ok cs
  stream : serialize s.cfg.outCap t cs s.text = .ok r

section Encoding
variable {s u : State} {tab : List FreqEntry} {t : Tree} {cs : List CodeEntry} {r : Stream}

theorem countBody_eq_ok (h : countBody s = .ok u) :
    ∃ tab, s.inLen.toNat ≤ s.cfg.inCap ∧ countText s.cfg.nSym 0 s.text [] = .ok tab ∧ u = installFreq tab s := by
  obtain ⟨-, body⟩ | ⟨e, -, -, body⟩ | ⟨tab, fits, counted, body⟩ := countBody_cases s
  · cases body.symm.trans h
  · cases body.symm.trans h
  · cases body.symm.trans h
    exact ⟨tab, fits, counted, rfl⟩

theorem buildBody_eq_ok (h : buildBody s = .ok u) : s.freqN ≠ 0 := by
  intro zero
  cases (buildFrom_of_zero (s := clearTree s) zero).symm.trans h

theorem gencodesBody_eq_ok (h : gencodesBody s = .ok u) :
    ∃ t cs, s.tree = some t ∧ codeTable s.cfg.lMax t = .ok cs ∧ u = installCodes cs (clearCodes s) := by
  obtain ⟨-, body⟩ | ⟨-, -, body⟩ | ⟨t, e, -, -, -, body⟩ | ⟨t, cs, -, tree, table, body⟩ :=
    gencodesFrom_cases (clearCodes s)
  · cases body.symm.trans h
  · cases body.symm.trans h
  · cases body.symm.trans h
  · cases body.symm.trans h
    exact ⟨t, cs, tree, table, rfl⟩

theorem serializeBody_eq_ok (h : serializeBody s = .ok u) :
    ∃ t r, s.tree = some t ∧ serialize s.cfg.outCap t (codeEntries s.code s.codeN.toNat) s.text = .ok r := by
  obtain ⟨-, body⟩ | ⟨-, -, body⟩ | ⟨-, -, -, body⟩ | ⟨-, -, -, -, body⟩ | ⟨t, e, -, -, -, -, -, body⟩ |
    ⟨t, r, -, -, -, tree, stream, body⟩ := serializeBody_cases s
  · cases body.symm.trans h
  · cases body.symm.trans h
  · cases body.symm.trans h
  · cases body.symm.trans h
  · cases body.symm.trans h
  · exact ⟨t, r, tree, stream⟩

theorem codeEntries_installCodes (small : cs.length < 2 ^ 32) :
    codeEntries (installCodes cs s).code (installCodes cs s).codeN.toNat = cs := by
  rw [installCodes_code, installCodes_codeN, BitVec.toNat_ofNat, Nat.mod_eq_of_lt small, codeEntries_ofWords]

/-- ENCODE succeeds only when its four computations do. -/
theorem encodes_of_encodeBody (wf : s.cfg.wf) (h : encodeBody s = .ok u) : ∃ tab t cs r, s.Encodes tab t cs r := by
  have stages := encodeFailed_eq_ok h
  obtain ⟨s3, codes, serialized⟩ := andThen_eq_ok stages
  obtain ⟨s2, built, generated⟩ := andThen_eq_ok codes
  obtain ⟨s1, count, build⟩ := andThen_eq_ok built
  obtain ⟨tab, fits, counted, rfl⟩ := countBody_eq_ok count
  have nonempty : tab ≠ [] := by
    rintro rfl
    exact buildBody_eq_ok build rfl
  cases (countBody_andThen_buildBody wf fits counted nonempty).symm.trans built
  obtain ⟨t, cs, tree, table, rfl⟩ := gencodesBody_eq_ok generated
  obtain ⟨t', r, tree', stream⟩ := serializeBody_eq_ok serialized
  cases tree.symm.trans tree'
  have few : tab.length ≤ s.cfg.nSym := countText_length_le List.Pairwise.nil (Nat.zero_le _) counted
  have ⟨⟨_, nSym⟩, _⟩ := wf
  have built : builtTree s.cfg.nodeCap tab = some t := (tree_treeState nonempty (few.trans nSym)).symm.trans tree
  obtain ⟨small, -, length⟩ := encoded_sizes wf counted nonempty built table
  rw [codeEntries_installCodes (by omega)] at stream
  exact ⟨tab, t, cs, r, fits, counted, nonempty, built, table, stream⟩

/-- The characters of the encoder's tree are those of the text. -/
theorem State.Encodes.sym_mem_text (h : s.Encodes tab t cs r) (wf : s.cfg.wf) : ∀ c ∈ t.syms, c ∈ s.text := by
  intro c hc
  obtain ⟨-, max⟩ := lMax_bounds wf
  have codes := isCodeTable_of_codeTable max h.table
  have length := (encoded_sizes wf h.counted h.nonempty h.built h.table).2.2
  obtain ⟨coded, -⟩ := serialize_ok h.stream
  obtain ⟨-, rfl⟩ := countText_ok (read := []) h.counted
  have syms := map_sym_eq (ascending_tally s.text) codes.ascending length fun e he =>
    (coded _ (sym_mem_of_mem_tally he)).2
  obtain ⟨bs, word⟩ := exists_wordOf_of_mem_syms hc
  obtain ⟨e, he, rfl, -⟩ := codes.complete bs c word
  exact mem_map_sym_tally.mp (syms ▸ List.mem_map_of_mem he)

/-- The stream that ENCODE writes is well-formed (R158). -/
theorem State.Encodes.wellFormedStream (h : s.Encodes tab t cs r) (wf : s.cfg.wf) (m : Memory)
    (fits : s.text.length ≤ s.cfg.outCap) :
    WellFormedStream s.cfg (writeStream m r.bytes) r.bytes.length t s.text := by
  obtain ⟨-, max⟩ := lMax_bounds wf
  obtain ⟨coded, -⟩ := serialize_ok h.stream
  obtain ⟨stream, -⟩ := isStream_of_serialize h.stream
  have few : tab.length ≤ s.cfg.nSym := countText_length_le List.Pairwise.nil (Nat.zero_le _) h.counted
  obtain ⟨-, leaves, -⟩ := encoded_sizes wf h.counted h.nonempty h.built h.table
  exact stream.wellFormedStream (fun c hc => (coded c (h.sym_mem_text wf c hc)).1)
    (by rw [Config.nodeCap]; omega) ((isCodeTable_of_codeTable max h.table).spellsText coded) fits

/-- Where ENCODE completes without an error: its tree, and its stream in OBUF. -/
theorem exec_encode_of_noErr (wf : s.cfg.wf) (next : exec .encode s = .next u) (noErr : u.err = false) :
    ∃ tab t cs r, s.Encodes tab t cs r ∧ u.tree = some t ∧ u.outLen.toNat = r.bytes.length ∧
      u.obuf = writeStream s.obuf r.bytes := by
  obtain ⟨v, body, rfl⟩ := finish_next_ok next noErr
  obtain ⟨tab, t, cs, r, h⟩ := encodes_of_encodeBody wf body
  cases (encodeBody_of_ok wf h.fits h.counted h.nonempty h.built h.table h.stream).symm.trans body
  obtain ⟨small, -⟩ := encoded_sizes wf h.counted h.nonempty h.built h.table
  obtain ⟨-, short⟩ := isStream_of_serialize h.stream
  obtain ⟨-, -, ⟨-, outCap⟩, -⟩ := wf
  exact ⟨tab, t, cs, r, h, (tree_treeState h.nonempty small).trans h.built, Nat.mod_eq_of_lt (by omega), rfl⟩

end Encoding

/-- Settles O43: the stream ENCODE leaves in OBUF is a well-formed stream of its tree and the text, and so is its copy
in IBUF (O41). -/
theorem decodeInvertsEncodeCommand : Obligations.DecodeInvertsEncodeCommand := by
  intro s u v wf _ encoded noErr streamFits textFits cfg inLen copied
  obtain ⟨tab, t, cs, r, encodes, tree, outLen, obuf⟩ := exec_encode_of_noErr wf encoded noErr
  rw [← s.length_text] at textFits
  have stream : WellFormedStream v.cfg v.ibuf v.inLen.toNat t s.text := by
    rw [cfg, inLen]
    refine WellFormedStream.congr copied ?_
    rw [outLen, obuf]
    exact encodes.wellFormedStream wf s.obuf textFits
  obtain ⟨w, decoded, frame, length, text, -, tree', -, reached, -⟩ :=
    decodeReadsAWellFormedStream.1 v t s.text (cfg ▸ wf) (by rwa [cfg, inLen]) stream
  refine ⟨w, decoded, (congrArg State.err frame :), (congrArg State.treeValid frame :), ?_, fun i hi => ?_,
    tree'.trans tree.symm, (congrArg State.root frame :), reached⟩
  · exact BitVec.eq_of_toNat_eq (length.trans s.length_text)
  · rw [text i (s.length_text.symm ▸ hi)]
    simp [State.text, ibufWords]

end Sys2Proof.Machine
end

section
/-! Errors of DECODE in Phase 1, behind the nodes of a tree that is not yet whole (45_decoder.md R350 to R357). -/

namespace Sys2Proof.Machine

/-! ### Reading a node that is not there (R352, R355, R356) -/

section Reading
variable {nb cap p j : Nat} {bit : Nat → Bool}

theorem readBits_of_short {k : Nat} (short : nb < p + k) :
    readBits nb bit k p = .error (.truncatedStream p (p + k) nb) := if_pos short

theorem readBits_one (room : p < nb) : readBits nb bit 1 p = .ok ((bit p).toNat, p + 1) := by
  simpa [bitsValue] using readBits_of_readsAt (bs := [bit p]) room ⟨rfl, trivial⟩

theorem readSym_of_invalid {c : Word} (room : p + 32 ≤ nb) (h : ReadsAt bit p (wordBits c))
    (invalid : validCodePoint c = false) : readSym nb bit p = .error (.invalidCodePoint p c) := by
  have read := readBits_of_readsAt (nb := nb) (by rwa [length_wordBits]) h
  rw [length_wordBits] at read
  simp [readSym, read, ofNat_bitsValue_wordBits, invalid]

/-- Behind `j` nodes, at bit `p`, reading the next node raises `e`. -/
def NodeFails (nb : Nat) (bit : Nat → Bool) (cap p j : Nat) (e : CmdError) : Prop :=
  ∀ nodes : List Node, nodes.length = j → readNode nb bit cap ⟨p, nodes⟩ = .error e

theorem nodeFails_of_end (last : p = nb) : NodeFails nb bit cap p j (.truncatedStream p (p + 1) nb) := by
  rintro nodes -
  subst last
  rw [readNode, readBits_of_short (Nat.lt_succ_self p)]

theorem nodeFails_of_full (room : p < nb) (full : j = cap) : NodeFails nb bit cap p j (.capacity 3 (cap + 1) cap) := by
  rintro nodes rfl
  simp [readNode, readBits_one room, full]

/-- At a Leaf tag, with an entry left, the error is that of reading the character. -/
theorem nodeFails_of_readSym {e : CmdError} (room : p < nb) (more : j < cap) (tag : bit p = true)
    (failed : readSym nb bit (p + 1) = .error e) : NodeFails nb bit cap p j e := by
  rintro nodes rfl
  simp [readNode, readBits_one room, tag, more.ne, failed]

end Reading

/-! ### The empty slots on the stack (R353, R354) -/

/-- The stack's nodes are distinct Internal nodes with so many empty slots. -/
inductive Slots (nodes : List Node) : List Nat → Nat → Prop
  | nil : Slots nodes [] 0
  | both {p n : Nat} {b : Word} {w : DWord} {stack : List Nat} (here : nodes[p]? = some (.internal NIL b w))
      (apart : p ∉ stack) (rest : Slots nodes stack n) : Slots nodes (p :: stack) (n + 2)
  | right {p n : Nat} {a b : Word} {w : DWord} {stack : List Nat} (here : nodes[p]? = some (.internal a b w))
      (full : a ≠ NIL) (apart : p ∉ stack) (rest : Slots nodes stack n) : Slots nodes (p :: stack) (n + 1)

theorem Slots.congr {nodes nodes' : List Node} {stack : List Nat} {n : Nat} (h : Slots nodes stack n)
    (same : ∀ p ∈ stack, nodes'[p]? = nodes[p]?) : Slots nodes' stack n := by
  induction h with
  | nil => exact .nil
  | both here apart rest ih =>
    exact .both ((same _ List.mem_cons_self).trans here) apart (ih fun q hq => same q (List.mem_cons_of_mem _ hq))
  | right here full apart rest ih =>
    exact .right ((same _ List.mem_cons_self).trans here) full apart (ih fun q hq => same q (List.mem_cons_of_mem _ hq))

theorem Slots.lt_length {nodes : List Node} {stack : List Nat} {n : Nat} (h : Slots nodes stack n) :
    ∀ p ∈ stack, p < nodes.length := by
  induction h with
  | nil => simp
  | both here apart rest ih => exact List.forall_mem_cons.mpr ⟨(List.getElem?_eq_some_iff.mp here).1, ih⟩
  | right here full apart rest ih => exact List.forall_mem_cons.mpr ⟨(List.getElem?_eq_some_iff.mp here).1, ih⟩

/-- A new node takes the first empty slot. -/
theorem Slots.attach {nodes : List Node} {p j n : Nat} {stack : List Nat} (h : Slots nodes (p :: stack) (n + 1))
    (small : j < 2 ^ 32 - 1) : Slots (attach nodes p j).1 (stackBelow nodes p j stack) n := by
  have set_other (m : Node) (apart : p ∉ stack) : ∀ q ∈ stack, (nodes.set p m)[q]? = nodes[q]? := fun q hq =>
    List.getElem?_set_ne (ne_of_mem_of_not_mem hq apart).symm
  have inside := h.lt_length p List.mem_cons_self
  cases h with
  | both here apart rest =>
    rw [stackBelow, attach_left j here]
    exact .right (List.getElem?_set_self inside) (ofNat_ne_NIL small) apart (rest.congr (set_other _ apart))
  | right here full apart rest =>
    rw [stackBelow, attach_right j here full]
    exact rest.congr (set_other _ apart)

/-- How many slots a new node opens: two of an Internal node, none of a Leaf. -/
def openedSlots : Option Word → Nat
  | none => 2
  | some _ => 0

/-- A new node opens its own slots. -/
theorem Slots.push {nodes : List Node} {j n : Nat} {stack : List Nat} (h : Slots nodes stack n)
    (last : nodes.length = j) (x : Option Word) :
    Slots (nodes ++ [freshNode x]) (pushOpen x.isSome j stack) (n + openedSlots x) := by
  have inside := h.lt_length
  have old : Slots (nodes ++ [freshNode x]) stack n := h.congr fun p hp => List.getElem?_append_left (inside p hp)
  subst last
  cases x with
  | some c => exact old
  | none => exact .both List.getElem?_concat_length (fun self => Nat.lt_irrefl _ (inside _ self)) old

theorem emptySlots_cons (n : Nat) (x : Option Word) (xs : List (Option Word)) :
    emptySlots (n + 1) (x :: xs) = emptySlots (n + openedSlots x) xs := by
  cases x <;> rfl

/-- A node that stands behind others has an empty slot on top of the stack. -/
theorem Slots.exists_top {nodes : List Node} {stack : List Nat} {n : Nat} {x : Option Word} {xs : List (Option Word)}
    (h : Slots nodes stack n) (unfilled : 0 < emptySlots n (x :: xs)) :
    ∃ p below k, stack = p :: below ∧ n = k + 1 := by
  cases h with
  | nil => exact absurd unfilled (Nat.lt_irrefl 0)
  | both => exact ⟨_, _, _, rfl, rfl⟩
  | right => exact ⟨_, _, _, rfl, rfl⟩

/-! ### Phase 1 behind the nodes that are there -/

/-- The nodes `xs` stand in the stream one behind the other from bit `p` on. -/
def NodesAt (nb : Nat) (bit : Nat → Bool) : Nat → List (Option Word) → Prop
  | _, [] => True
  | p, x :: xs => NodeAt nb bit p x ∧ NodesAt nb bit (p + (nodeBits x).length) xs

theorem nodesAt_of_readsAt {nb p : Nat} {bit : Nat → Bool} {xs : List (Option Word)}
    (valid : ∀ c, some c ∈ xs → validCodePoint c = true) (fits : p + (xs.flatMap nodeBits).length ≤ nb)
    (reads : ReadsAt bit p (xs.flatMap nodeBits)) : NodesAt nb bit p xs := by
  induction xs generalizing p with
  | nil => trivial
  | cons x xs ih =>
    rw [List.flatMap_cons, List.length_append] at fits
    rw [List.flatMap_cons, readsAt_append] at reads
    obtain ⟨first, others⟩ := reads
    refine ⟨⟨by omega, first, fun c hc => valid c (hc ▸ List.mem_cons_self)⟩, ih (fun c hc => ?_) (by omega) others⟩
    exact valid c (List.mem_cons_of_mem _ hc)

theorem length_le_length_flatMap_nodeBits (xs : List (Option Word)) : xs.length ≤ (xs.flatMap nodeBits).length := by
  induction xs with
  | nil => exact Nat.le_refl _
  | cons x xs ih =>
    have positive : 1 ≤ (nodeBits x).length := by cases x <;> simp
    rw [List.length_cons, List.flatMap_cons, List.length_append]
    omega

section Phase1Errors
variable {nb cap : Nat} {bit : Nat → Bool} {e : CmdError}

/-- Phase 1 reads the nodes that are there, and raises at the next one while a slot is empty. -/
theorem fillSlots_of_nodeFails (small : cap < 2 ^ 32) {xs : List (Option Word)} {fuel n : Nat} {c : DecCursor}
    {stack : List Nat} (slots : Slots c.nodes stack n) (unfilled : 0 < emptySlots n xs)
    (nodes : NodesAt nb bit c.pos xs) (room : c.nodes.length + xs.length ≤ cap) (enough : xs.length < fuel)
    (failed : NodeFails nb bit cap (c.pos + (xs.flatMap nodeBits).length) (c.nodes.length + xs.length) e) :
    fillSlots nb bit cap fuel c stack = .error e := by
  induction xs generalizing fuel n c stack with
  | nil =>
    obtain ⟨fuel, rfl⟩ := Nat.exists_eq_add_of_le' (Nat.zero_lt_of_lt enough)
    have next : readNode nb bit cap c = .error e := failed c.nodes rfl
    cases slots with
    | nil => exact absurd unfilled (Nat.lt_irrefl 0)
    | both | right => rw [fillSlots, next]
  | cons x xs ih =>
    obtain ⟨fuel, rfl⟩ := Nat.exists_eq_add_of_le' (Nat.zero_lt_of_lt enough)
    obtain ⟨here, others⟩ := nodes
    rw [List.length_cons] at room enough failed
    rw [List.flatMap_cons, List.length_append, ← Nat.add_assoc, Nat.add_comm xs.length 1, ← Nat.add_assoc] at failed
    obtain ⟨p, below, k, rfl, rfl⟩ := slots.exists_top (x := x) unfilled
    rw [emptySlots_cons] at unfilled
    rw [fillSlots_of_nodeAt (slots.lt_length p List.mem_cons_self) (by omega) here]
    have length := length_attach c.nodes p c.nodes.length
    refine ih ((slots.attach (by omega)).push length x) unfilled others ?_ (by omega) ?_
    · simp only [List.length_append, List.length_singleton, length]
      omega
    · simpa only [List.length_append, List.length_singleton, length] using failed

theorem readTreeRegion_of_nodeFails (small : cap < 2 ^ 32) {xs : List (Option Word)} (unfilled : 0 < emptySlots 1 xs)
    (nodes : NodesAt nb bit 0 xs) (fits : (xs.flatMap nodeBits).length ≤ nb) (room : xs.length ≤ cap)
    (failed : NodeFails nb bit cap (xs.flatMap nodeBits).length xs.length e) :
    readTreeRegion nb bit cap = .error e := by
  cases xs with
  | nil => rw [readTreeRegion, show readNode nb bit cap ⟨0, []⟩ = .error e from failed [] rfl]
  | cons x xs =>
    have few := (length_le_length_flatMap_nodeBits (x :: xs)).trans fits
    obtain ⟨here, others⟩ := nodes
    rw [readTreeRegion, readNode_of_nodeAt (c := ⟨0, []⟩) (by simpa using Nat.zero_lt_of_lt room) here]
    rw [emptySlots_cons] at unfilled
    rw [List.length_cons, Nat.add_comm] at room few failed
    rw [List.flatMap_cons, List.length_append] at failed
    refine fillSlots_of_nodeFails small (Slots.nil.push rfl x) unfilled ?_ room (by omega) ?_
    · exact others
    · simpa using failed

end Phase1Errors

/-! ### The command -/

/-- DECODE of a stream that begins with nodes of a tree not yet whole, the next of which raises. -/
theorem exec_decode_of_nodeFails {s : State} {xs : List (Option Word)} {e : CmdError} (wf : s.cfg.wf)
    (fits : s.inLen.toNat ≤ s.cfg.inCap) (begins : TreeBeginsWith s.cfg s.ibuf s.inLen.toNat xs)
    (failed : NodeFails (8 * s.inLen.toNat) (streamBit s.ibuf) s.cfg.nodeCap (xs.flatMap nodeBits).length xs.length e) :
    ∃ u, exec .decode s = .next u ∧ u.FailedWith e.code e.args.1 e.args.2.1 e.args.2.2 := by
  obtain ⟨unfilled, valid, room, inside, bits⟩ := begins
  have cap := nodeCap_lt wf
  have nodes : NodesAt (8 * s.inLen.toNat) (streamBit s.ibuf) 0 xs :=
    nodesAt_of_readsAt valid (by omega) (readsAt_iff.mpr (by simpa using bits))
  have phase1 := readTreeRegion_of_nodeFails (by omega) unfilled nodes inside room failed
  exact exec_decode_of_raised (decodeBody_of_error fits (by rw [State.decoding, decodeStream, phase1]))

/-- Settles O44: Phase 1 reads the nodes that are there and comes to the next one, which the four cases make fail. -/
theorem decodeReportsTreeRegionErrors : Obligations.DecodeReportsTreeRegionErrors := by
  rintro s n p xs wf rfl fits begins rfl
  refine ⟨fun last => ?_, fun inside full => ?_, fun inside more tag => ⟨fun cut => ?_, fun whole x bits invalid => ?_⟩⟩
  · exact exec_decode_of_nodeFails wf fits begins (nodeFails_of_end last)
  · exact exec_decode_of_nodeFails wf fits begins (nodeFails_of_full inside full)
  · exact exec_decode_of_nodeFails wf fits begins
      (nodeFails_of_readSym inside more tag (by rw [readSym, readBits_of_short (by omega)]))
  · have char : ReadsAt (streamBit s.ibuf) ((xs.flatMap nodeBits).length + 1) (wordBits x) :=
      readsAt_iff.mpr (by rwa [length_wordBits])
    exact exec_decode_of_nodeFails wf fits begins
      (nodeFails_of_readSym inside more tag (readSym_of_invalid (by omega) char invalid))

end Sys2Proof.Machine
end

section
/-! Errors of DECODE behind a whole tree region: its trailer and its payload (45_decoder.md R358 to R361). -/

namespace Sys2Proof.Machine

/-! ### Phase 2 (R358) -/

theorem stopPosition_of_short {nb t low3 : Nat} (short : nb < t + 3) :
    stopPosition nb t low3 = .error (.truncatedStream t (t + 3) nb) := if_pos short

theorem stopPosition_of_inside {nb t low3 : Nat} (room : t + 3 ≤ nb) (inside : nb - 10 + low3 < t) :
    stopPosition nb t low3 = .error (.malformedTrailer (nb - 10 + low3) t nb) := by
  rw [stopPosition, if_neg (Nat.not_lt.mpr room), if_pos inside]

/-! ### Phase 3 behind the codes of a text (R359 to R361) -/

section Payload
variable {ns : List Node} {cap stop : Nat} {t : Tree} {is : List Nat}

/-- Phase 3 writes the text that the first payload bits spell and goes on behind them. -/
theorem decodeRest_spelled (h : HoldsTree ns 0 t is) (sorted : is.Pairwise (· < ·)) {bs : List Bool} {text : List Word}
    (spells : SpellsText t bs text) {out : List Word} (fits : out.length + text.length ≤ cap) (rest : List Bool)
    (pos : Nat) :
    decodeRest ns cap stop t (bs ++ rest) pos out =
      decodeRest ns cap stop t rest (pos + bs.length) (out ++ text) := by
  obtain ⟨codes, rfl, words⟩ := spells
  induction codes generalizing text pos out with
  | nil =>
    obtain rfl : text = [] := by simpa using words.symm
    simp
  | cons code codes ih =>
    cases text with
    | nil => simp at words
    | cons c text =>
      obtain ⟨word, words⟩ := List.cons_eq_cons.mp words
      rw [List.length_cons] at fits
      rw [List.flatten_cons, List.append_assoc, decodeRest_word h sorted word, emitChar_of_lt (by omega)]
      refine (ih (out := out ++ [c]) (by simp; omega) (pos + code.length) words).trans ?_
      rw [List.length_append, Nat.add_assoc, List.append_assoc]
      rfl

/-- A text that does not fit OBUF raises at its first character too many. -/
theorem decodeRest_full (h : HoldsTree ns 0 t is) (sorted : is.Pairwise (· < ·)) {bs : List Bool} {text : List Word}
    (spells : SpellsText t bs text) {out : List Word} (fits : out.length ≤ cap) (long : cap < out.length + text.length)
    (rest : List Bool) (pos : Nat) : decodeRest ns cap stop t (bs ++ rest) pos out = .error (obufFull cap) := by
  obtain ⟨codes, rfl, words⟩ := spells
  induction codes generalizing text pos out with
  | nil =>
    obtain rfl : text = [] := by simpa using words.symm
    exact absurd fits (Nat.not_le.mpr long)
  | cons code codes ih =>
    cases text with
    | nil => simp at words
    | cons c text =>
      obtain ⟨word, words⟩ := List.cons_eq_cons.mp words
      rw [List.length_cons] at long
      rw [List.flatten_cons, List.append_assoc, decodeRest_word h sorted word]
      obtain room | full := Nat.lt_or_eq_of_le fits
      · rw [emitChar_of_lt room]
        exact ih (out := out ++ [c]) (by simp; omega) (by simp; omega) (pos + code.length) words
      · rw [emitChar_of_full full, full]
        rfl

/-- A code cut off by the stop position (R359). -/
theorem decodeRest_cut (h : HoldsTree ns 0 t is) (sorted : is.Pairwise (· < ·)) {bs more : List Bool} {c : Word}
    (nonempty : bs ≠ []) (missing : more ≠ []) (found : t.follow (bs ++ more) = some c) (pos : Nat) (out : List Word) :
    decodeRest ns cap stop t bs pos out = .error (.truncatedStream stop (stop + 1) stop) := by
  cases t with
  | leaf d => exact absurd (List.append_eq_nil_iff.mp (follow_leaf_eq_some_iff.mp found).1).1 nonempty
  | node l r =>
    refine h.walk_cut sorted (.inr nonempty) (fun code rest c' split word => ?_) out
    rw [split, List.append_assoc] at found
    exact missing (List.append_eq_nil_iff.mp (eq_nil_of_follow_append word found)).2

/-- A 1 in the payload of a single-character stream (R360). -/
theorem decodeRest_one (c : Word) (bs : List Bool) (pos : Nat) (out : List Word) :
    decodeRest ns cap stop (.leaf c) (true :: bs) pos out = .error (.malformedPayload pos) := rfl

/-- Zeros are the codes of a single character (R292). -/
theorem spellsText_zeros (c : Word) (k : Nat) : SpellsText (.leaf c) (List.replicate k false) (List.replicate k c) := by
  induction k with
  | zero => exact spellsText_nil _
  | succ k ih => exact ih.cons (code := [false]) rfl

/-- Bits whose first 1 stands behind `k` zeros. -/
theorem eq_zeros_append_one {bs : List Bool} {k : Nat} (zeros : ∀ b ∈ bs.take k, b = false) (one : bs[k]? = some true) :
    bs = List.replicate k false ++ true :: bs.drop (k + 1) := by
  obtain ⟨inside, here⟩ := List.getElem?_eq_some_iff.mp one
  have first : bs.take k = List.replicate k false :=
    List.eq_replicate_iff.mpr ⟨List.length_take_of_le inside.le, zeros⟩
  rw [← first, ← here, ← List.drop_eq_getElem_cons inside, List.take_append_drop]

end Payload

/-! ### The command -/

section Region
variable {s : State} {t : Tree} {e : CmdError}

/-- DECODE of a stream whose tree region is whole, and whose trailer raises (R358). -/
theorem exec_decode_of_trailer_error (wf : s.cfg.wf) (fits : s.inLen.toNat ≤ s.cfg.inCap)
    (region : TreeRegionOf s.cfg s.ibuf s.inLen.toNat t)
    (failed : stopPosition (8 * s.inLen.toNat) t.bits.length ((ibufWord s.ibuf (s.inLen.toNat - 1)).toNat % 8) =
      .error e) :
    ∃ u, exec .decode s = .next u ∧ u.FailedWith e.code e.args.1 e.args.2.1 e.args.2.2 := by
  have cap := nodeCap_lt wf
  have phase1 := readTreeRegion_of_standsAt (by omega) (treeRegionOf_iff.mp region)
  refine exec_decode_of_raised (decodeBody_of_error fits ?_)
  rw [State.decoding, decodeStream, phase1]
  simp only [failed]

/-- DECODE of a stream whose payload raises. -/
theorem exec_decode_of_payload_error (wf : s.cfg.wf) (fits : s.inLen.toNat ≤ s.cfg.inCap)
    (region : TreeRegionOf s.cfg s.ibuf s.inLen.toNat t) (trailer : t.bits.length + 3 ≤ 8 * s.inLen.toNat)
    (behind : t.bits.length ≤ stopOf s.ibuf s.inLen.toNat)
    (failed : ∀ ns, HoldsTree ns 0 t (List.range t.size) →
      decodeRest ns s.cfg.outCap (stopOf s.ibuf s.inLen.toNat) t (payloadOf s.ibuf s.inLen.toNat t) t.bits.length [] =
        .error e) :
    ∃ u, exec .decode s = .next u ∧ u.FailedWith e.code e.args.1 e.args.2.1 e.args.2.2 := by
  have cap := nodeCap_lt wf
  have size := t.size_succ
  have ⟨_, nodes, _⟩ := region
  have phase1 := readTreeRegion_of_standsAt (by omega) (treeRegionOf_iff.mp region)
  have phase2 : stopPosition (8 * s.inLen.toNat) t.bits.length ((ibufWord s.ibuf (s.inLen.toNat - 1)).toNat % 8) =
      .ok (stopOf s.ibuf s.inLen.toNat) := stopPosition_eq_ok_iff.mpr ⟨trailer, behind, rfl⟩
  have holds := t.holdsTree_nodesFrom_zero (by omega)
  have phase3 : decodePayload (streamBit s.ibuf) (t.nodesFrom 0) s.cfg.outCap t.bits.length
      (stopOf s.ibuf s.inLen.toNat) = .error e := (decodePayload_eq_decodeRest holds).trans (failed _ holds)
  refine exec_decode_of_raised (decodeBody_of_error fits ?_)
  rw [State.decoding, decodeStream, phase1]
  simp only [phase2, phase3]

end Region

/-- Behind no nodes, Phase 1 comes to the root. -/
theorem treeBeginsWith_nil (c : Config) (m : Memory) (n : Nat) : TreeBeginsWith c m n [] :=
  ⟨Nat.one_pos, fun _ h => absurd h List.not_mem_nil, Nat.zero_le _, Nat.zero_le _, rfl⟩

/-- Settles O45: the length is checked first; the root is a node behind no others (O44); then the trailer and the
payload decide. -/
theorem decodeReportsTheFirstError : Obligations.DecodeReportsTheFirstError := by
  rintro s n wf rfl
  refine ⟨fun long => ?_, fun empty => ?_, fun fits room tag x bits invalid => ?_, fun t fits region =>
    ⟨fun short => ?_, fun trailer inside => ?_, fun trailer behind =>
      ⟨fun c k leaf one zeros few => ?_, fun bs rest more text c split spells few nonempty missing found => ?_,
        fun bs rest text split spells long => ?_⟩⟩⟩
  · simpa [CmdError.code, CmdError.args] using exec_decode_of_raised (decodeBody_of_long long)
  · obtain ⟨endOfStream, -⟩ := decodeReportsTreeRegionErrors s _ _ [] wf rfl (by omega) (treeBeginsWith_nil _ _ _) rfl
    have failed := endOfStream (by simp [empty])
    simpa [empty] using failed
  · have cap : 0 < s.cfg.nodeCap := by
      unfold Config.nodeCap
      omega
    obtain ⟨-, -, character⟩ := decodeReportsTreeRegionErrors s _ _ [] wf rfl fits (treeBeginsWith_nil _ _ _) rfl
    exact (character (by simp; omega) cap tag).2 room x bits invalid
  · exact exec_decode_of_trailer_error wf fits region (stopPosition_of_short short)
  · exact exec_decode_of_trailer_error wf fits region (stopPosition_of_inside trailer inside)
  · subst leaf
    refine exec_decode_of_payload_error (e := .malformedPayload ((Tree.leaf c).bits.length + k)) wf fits region trailer
      behind fun ns holds => ?_
    rw [eq_zeros_append_one zeros one, decodeRest_spelled holds List.pairwise_lt_range (spellsText_zeros c k)
      (by simpa using few), List.length_replicate]
    exact decodeRest_one c _ _ _
  · refine exec_decode_of_payload_error (e := .truncatedStream (stopOf s.ibuf s.inLen.toNat)
      (stopOf s.ibuf s.inLen.toNat + 1) (stopOf s.ibuf s.inLen.toNat)) wf fits region trailer behind fun ns holds => ?_
    rw [split, decodeRest_spelled holds List.pairwise_lt_range spells (by simpa using few)]
    exact decodeRest_cut holds List.pairwise_lt_range nonempty missing found _ _
  · refine exec_decode_of_payload_error (e := obufFull s.cfg.outCap) wf fits region trailer behind fun ns holds => ?_
    rw [split]
    exact decodeRest_full holds List.pairwise_lt_range spells (Nat.zero_le _) (by simp; omega) rest _

end Sys2Proof.Machine
end

section
/-! The interrupt output, and the completion of an illegal word (60_exceptions.md R405, R420; 30_encoding.md R143). -/

namespace Sys2Proof.Machine

/-! ### The interrupt output (R420) -/

/-- No command writes CTRL: IRQ_EN is in the frame of every one (O48). -/
theorem exec_irqEn {i : Instr} {s t : State} (next : exec i s = .next t) : t.irqEn = s.irqEn := by
  obtain ⟨nop, clear, count, build, gencodes, serialize, encode, decode, illegal, -⟩ := commandsChangeOnlyTheirResults
  cases i with
  | nop => exact (congrArg State.irqEn (nop s t next) :)
  | clear => exact (congrArg State.irqEn (clear s t next) :)
  | count => exact (congrArg State.irqEn (count s t next) :)
  | build => exact (congrArg State.irqEn (build s t next) :)
  | gencodes => exact (congrArg State.irqEn (gencodes s t next) :)
  | serialize => exact (congrArg State.irqEn (serialize s t next) :)
  | encode => exact (congrArg State.irqEn (encode s t next) :)
  | decode => exact (congrArg State.irqEn (decode s t next) :)
  | _ => exact (congrArg State.irqEn (illegal _ s t rfl next) :)

theorem irq_of_done {s : State} (done : s.done = true) : s.irq = s.irqEn := by rw [State.irq, done, Bool.and_true]

theorem irq_of_not_done {s : State} (notDone : s.done = false) : s.irq = false := by
  rw [State.irq, notDone, Bool.and_false]

theorem irq_of_disabled {s : State} (disabled : s.irqEn = false) : s.irq = false := by
  rw [State.irq, disabled, Bool.false_and]

/-- Settles O20: a completion sets DONE and keeps IRQ_EN (O49, O48); acceptance, a reset and a W1C write clear DONE, and
CTRL bit 0 is IRQ_EN. -/
theorem irqFollowsDoneAndEnable : Obligations.IrqFollowsDoneAndEnable := by
  refine ⟨fun _ => rfl, fun i s t next => ?_, fun s v => ⟨fun ack => ?_, fun off => ?_, fun on done => ?_,
    fun idle => ?_, rfl⟩⟩
  · obtain ⟨-, done, -⟩ := completionSetsTheFlags i s t next
    exact (irq_of_done done).trans (exec_irqEn next)
  · rw [hostWrite_regAddr s .status v (.inr rfl)]
    exact irq_of_not_done (by rw [writeReg, ackStatus_done, ack, Bool.not_true, Bool.and_false])
  · rw [hostWrite_regAddr s .ctrl v (.inr rfl)]
    exact irq_of_disabled off
  · rw [hostWrite_regAddr s .ctrl v (.inr rfl)]
    exact (irq_of_done (s := writeCtrl v s) done).trans on
  · rw [hostWrite_regAddr s .cmd v (.inl idle)]
    exact irq_of_not_done rfl

/-! ### Illegal words (R143, R405) -/

/-- Settles O28: an illegal word is accepted like any other, and its instruction carries the word, which the error
completion reports (O3). -/
theorem illegalWordsCompleteWithIllegalCommand : Obligations.IllegalWordsCompleteWithIllegalCommand := by
  refine ⟨exec_illegal, fun s w idle big => ?_⟩
  have completes := (exactlyEightWordsAreLegal w).2 big
  rw [hostWrite_regAddr s .cmd w (.inl idle), completes]
  exact ⟨_, _, rfl⟩

end Sys2Proof.Machine
end

section
/-! The error codes of the computations and of the commands' bodies (60_exceptions.md R400, R413), and what a body that
raises leaves (R416). -/

namespace Sys2Proof.Machine

/-! ### The codes an answer can carry -/

/-- An error of the answer has one of these codes (R400). -/
def ErrorsAmong {α : Type} (codes : List Nat) (answer : Except CmdError α) : Prop :=
  ∀ e, answer = .error e → e.code.toNat ∈ codes

section Answers
variable {α β : Type} {codes : List Nat} {answer : Except CmdError α}

theorem errorsAmong_ok (codes : List Nat) (a : α) : ErrorsAmong codes (.ok a) := fun _ h => by cases h

theorem errorsAmong_error {e : CmdError} (listed : e.code.toNat ∈ codes := by simp [CmdError.code]) :
    ErrorsAmong codes (.error e : Except CmdError α) := fun _ h => by cases h; exact listed

theorem ErrorsAmong.mono {codes' : List Nat} (h : ErrorsAmong codes answer) (sub : codes ⊆ codes') :
    ErrorsAmong codes' answer := fun e failed => sub (h e failed)

/-- An error that a computation passes on. -/
theorem ErrorsAmong.passedOn {codes' : List Nat} (h : ErrorsAmong codes answer) {e : CmdError}
    (failed : answer = .error e) (sub : codes ⊆ codes' := by simp) :
    ErrorsAmong codes' (.error e : Except CmdError β) := errorsAmong_error (sub (h e failed))

theorem errorsAmong_ite {c : Prop} [Decidable c] {b : Except CmdError α} (h : ErrorsAmong codes answer)
    (h' : ErrorsAmong codes b) : ErrorsAmong codes (if c then answer else b) := by
  split
  · exact h
  · exact h'

end Answers

/-! ### COUNT, BUILD and GENCODES -/

theorem countText_errors {nSym i : Nat} {cs : List Word} {tab : List FreqEntry} :
    ErrorsAmong [7, 3] (countText nSym i cs tab) := by
  induction cs generalizing i tab with
  | nil => exact errorsAmong_ok _ _
  | cons c cs ih =>
    exact errorsAmong_ite errorsAmong_error (errorsAmong_ite errorsAmong_error ih)

theorem checkFreq_errors {i : Nat} {prev : Option Word} {es : List FreqEntry} :
    ErrorsAmong [3, 9] (checkFreq i prev es) := by
  induction es generalizing i prev with
  | nil => exact errorsAmong_ok _ _
  | cons e es ih =>
    refine errorsAmong_ite errorsAmong_error ?_
    cases prev with
    | none => exact ih
    | some p => exact errorsAmong_ite errorsAmong_error ih

theorem code_of_tooLong {lMax : Nat} {l : List (Word × List Bool)} {e : CmdError} (h : tooLong lMax l = some e) :
    e.code.toNat = 8 := by
  obtain ⟨c, -, rfl⟩ := Option.map_eq_some_iff.mp h
  rfl

theorem code_of_repeated {l : List (Word × List Bool)} {e : CmdError} (h : repeated l = some e) :
    e.code.toNat = 12 := by
  obtain ⟨c, -, rfl⟩ := Option.map_eq_some_iff.mp h
  rfl

theorem codeTable_error_cases {lMax : Nat} {t : Tree} {e : CmdError} (h : codeTable lMax t = .error e) :
    tooLong lMax (leafCodes t) = some e ∨ repeated (leafCodes t) = some e := by
  cases long : tooLong lMax (leafCodes t) with
  | some e' =>
    cases (codeTable_of_tooLong long).symm.trans h
    exact .inl rfl
  | none =>
    cases twice : repeated (leafCodes t) with
    | some e' =>
      cases (codeTable_of_repeated long twice).symm.trans h
      exact .inr rfl
    | none => cases (codeTable_eq_ok_iff.mpr ⟨long, twice, rfl⟩).symm.trans h

/-! ### The encoder -/

section Encoder
variable {cap : Nat}

theorem flush_errors {v : Byte} {c : EncCursor} : ErrorsAmong [7] (flush cap v c) :=
  errorsAmong_ite errorsAmong_error (errorsAmong_ok _ _)

theorem emitBit_errors {b : Bool} {c : EncCursor} : ErrorsAmong [7] (emitBit cap b c) := by
  refine errorsAmong_ite ?_ (errorsAmong_ok _ _)
  split
  case h_1 failed => exact flush_errors.passedOn failed
  case h_2 => exact errorsAmong_ok _ _

theorem emitBits_errors {bs : List Bool} {c : EncCursor} : ErrorsAmong [7] (emitBits cap bs c) := by
  induction bs generalizing c with
  | nil => exact errorsAmong_ok _ _
  | cons b bs ih =>
    rw [emitBits]
    split
    case h_1 failed => exact emitBit_errors.passedOn failed
    case h_2 => exact ih

theorem emitText_errors {codes : List CodeEntry} {i : Nat} {xs : List Word} {c : EncCursor} :
    ErrorsAmong [7, 3, 10] (emitText cap codes i xs c) := by
  induction xs generalizing i c with
  | nil => exact errorsAmong_ok _ _
  | cons x xs ih =>
    rw [emitText]
    refine errorsAmong_ite errorsAmong_error ?_
    split
    case h_1 => exact errorsAmong_error
    case h_2 =>
      split
      case h_1 failed => exact emitBits_errors.passedOn failed
      case h_2 => exact ih

theorem emitTrailer_errors {c : EncCursor} : ErrorsAmong [7] (emitTrailer cap c) := by
  refine errorsAmong_ite flush_errors ?_
  split
  case h_1 failed => exact flush_errors.passedOn failed
  case h_2 => exact flush_errors

theorem serialize_errors {t : Tree} {codes : List CodeEntry} {text : List Word} :
    ErrorsAmong [7, 3, 10] (serialize cap t codes text) := by
  unfold serialize
  split
  case h_1 failed => exact emitBits_errors.passedOn failed
  case h_2 =>
    split
    case h_1 failed => exact emitText_errors.passedOn failed
    case h_2 =>
      split
      case h_1 failed => exact emitTrailer_errors.passedOn failed
      case h_2 => exact errorsAmong_ok _ _

end Encoder

/-! ### The decoder -/

section Decoder
variable {nb : Nat} {bit : Nat → Bool}

theorem readBits_errors {k pos : Nat} : ErrorsAmong [2] (readBits nb bit k pos) :=
  errorsAmong_ite errorsAmong_error (errorsAmong_ok _ _)

theorem readSym_errors {pos : Nat} : ErrorsAmong [2, 3] (readSym nb bit pos) := by
  unfold readSym
  split
  case h_1 failed => exact readBits_errors.passedOn failed
  case h_2 => exact errorsAmong_ite errorsAmong_error (errorsAmong_ok _ _)

theorem emitChar_errors {cap : Nat} {c : Word} {out : List Word} : ErrorsAmong [7] (emitChar cap c out) :=
  errorsAmong_ite errorsAmong_error (errorsAmong_ok _ _)

theorem readNode_errors {cap : Nat} {c : DecCursor} : ErrorsAmong [7, 2, 3] (readNode nb bit cap c) := by
  unfold readNode
  split
  case h_1 failed => exact readBits_errors.passedOn failed
  case h_2 =>
    refine errorsAmong_ite errorsAmong_error (errorsAmong_ite (errorsAmong_ok _ _) ?_)
    split
    case h_1 failed => exact readSym_errors.passedOn failed
    case h_2 => exact errorsAmong_ok _ _

theorem fillSlots_errors {cap fuel : Nat} {c : DecCursor} {stack : List Nat} :
    ErrorsAmong [7, 2, 3] (fillSlots nb bit cap fuel c stack) := by
  induction fuel generalizing c stack with
  | zero =>
    cases stack with
    | nil => exact errorsAmong_ok _ _
    | cons p stack => exact errorsAmong_error
  | succ fuel ih =>
    cases stack with
    | nil => exact errorsAmong_ok _ _
    | cons p stack =>
      rw [fillSlots]
      split
      case h_1 failed => exact readNode_errors.passedOn failed
      case h_2 => exact ih

theorem readTreeRegion_errors {cap : Nat} : ErrorsAmong [7, 2, 3] (readTreeRegion nb bit cap) := by
  unfold readTreeRegion
  split
  case h_1 failed => exact readNode_errors.passedOn failed
  case h_2 => exact fillSlots_errors

theorem stopPosition_errors {first low3 : Nat} : ErrorsAmong [2, 4] (stopPosition nb first low3) :=
  errorsAmong_ite errorsAmong_error (errorsAmong_ite errorsAmong_error (errorsAmong_ok _ _))

theorem decodeSingle_errors {c : Word} {cap pos : Nat} {bs : List Bool} {out : List Word} :
    ErrorsAmong [7, 11] (decodeSingle c cap bs pos out) := by
  induction bs generalizing pos out with
  | nil => exact errorsAmong_ok _ _
  | cons b bs ih =>
    rw [decodeSingle]
    refine errorsAmong_ite errorsAmong_error ?_
    split
    case h_1 failed => exact emitChar_errors.passedOn failed
    case h_2 => exact ih

theorem decodeWalk_errors {ns : List Node} {cap stop x : Nat} {bs : List Bool} {out : List Word} :
    ErrorsAmong [7, 2] (decodeWalk ns cap stop bs x out) := by
  induction bs generalizing x out with
  | nil => exact errorsAmong_ite (errorsAmong_ok _ _) errorsAmong_error
  | cons b bs ih =>
    rw [decodeWalk]
    split
    case h_1 =>
      split
      case h_1 failed => exact emitChar_errors.passedOn failed
      case h_2 => exact ih
    case h_2 => exact ih
    case h_3 => exact ih

theorem decodePayload_errors {ns : List Node} {cap first stop : Nat} :
    ErrorsAmong [7, 2, 11] (decodePayload bit ns cap first stop) := by
  unfold decodePayload
  split
  case h_1 => exact decodeSingle_errors.mono (by simp)
  case h_2 => exact decodeWalk_errors.mono (by simp)
  case h_3 => exact decodeWalk_errors.mono (by simp)

theorem decodeStream_errors {cfg : Config} {low3 : Nat} :
    ErrorsAmong [7, 2, 3, 4, 11] (decodeStream cfg nb bit low3) := by
  unfold decodeStream
  split
  case h_1 failed => exact readTreeRegion_errors.passedOn failed
  case h_2 =>
    split
    case h_1 failed => exact stopPosition_errors.passedOn failed
    case h_2 =>
      split
      case h_1 failed => exact decodePayload_errors.passedOn failed
      case h_2 => exact errorsAmong_ok _ _

end Decoder

/-! ### The bodies: the code raised, and the state left (R413, R416) -/

section Bodies
variable {s u : State} {e : CmdError}

theorem countBody_raised (h : countBody s = .raised e u) : u = countFailed s ∧ e.code.toNat ∈ [7, 3] := by
  obtain ⟨-, body⟩ | ⟨e', -, failed, body⟩ | ⟨tab, -, -, body⟩ := countBody_cases s <;> cases body.symm.trans h
  · exact ⟨rfl, by simp [CmdError.code]⟩
  · exact ⟨rfl, countText_errors _ failed⟩

theorem buildBody_raised (h : buildBody s = .raised e u) :
    u = buildFailed (clearTree s) ∧ e.code.toNat ∈ [1, 7, 3, 9] := by
  obtain ⟨-, body⟩ | ⟨-, -, body⟩ | ⟨e', -, -, failed, body⟩ | ⟨-, -, -, body⟩ := buildFrom_cases (clearTree s) <;>
    cases body.symm.trans h
  · exact ⟨rfl, by simp [CmdError.code]⟩
  · exact ⟨rfl, by simp [CmdError.code]⟩
  · exact ⟨rfl, checkFreq_errors.mono (by simp) _ failed⟩

theorem gencodesBody_raised (h : gencodesBody s = .raised e u) :
    u = gencodesFailed (clearCodes s) ∧ e.code.toNat ∈ [6, 8, 12] := by
  obtain ⟨-, body⟩ | ⟨-, -, body⟩ | ⟨t, e', -, -, failed, body⟩ | ⟨t, cs, -, -, -, body⟩ :=
    gencodesFrom_cases (clearCodes s) <;> cases body.symm.trans h
  · exact ⟨rfl, by simp [CmdError.code]⟩
  · refine ⟨rfl, ?_⟩
    obtain long | twice := codeTable_error_cases failed
    · simp [code_of_tooLong long]
    · simp [code_of_repeated twice]

theorem serializeBody_raised (h : serializeBody s = .raised e u) :
    u = outputFailed s ∧ e.code.toNat ∈ [6, 7, 1, 3, 10] := by
  obtain ⟨-, body⟩ | ⟨-, -, body⟩ | ⟨-, -, -, body⟩ | ⟨-, -, -, -, body⟩ | ⟨t, e', -, -, -, -, failed, body⟩ |
    ⟨t, r, -, -, -, -, -, body⟩ := serializeBody_cases s <;> cases body.symm.trans h
  · exact ⟨rfl, by simp [CmdError.code]⟩
  · exact ⟨rfl, by simp [CmdError.code]⟩
  · exact ⟨rfl, by simp [CmdError.code]⟩
  · exact ⟨rfl, serialize_errors.mono (by simp) _ failed⟩

theorem decodeBody_raised (h : decodeBody s = .raised e u) :
    u = decodeFailed (clearTree s) ∧ e.code.toNat ∈ [7, 2, 3, 4, 11] := by
  obtain ⟨-, body⟩ | ⟨e', -, failed, body⟩ | ⟨d, -, -, body⟩ := decodeFrom_cases (clearTree s) <;>
    cases body.symm.trans h
  · exact ⟨rfl, by simp [CmdError.code]⟩
  · exact ⟨rfl, decodeStream_errors _ failed⟩

theorem encodeFailed_eq_raised {g : Stage} (h : g.encodeFailed = .raised e u) :
    ∃ v, g = .raised e v ∧ u = outputFailed v := by
  cases g with
  | ok v => cases h
  | stuck k => cases h
  | raised e' v => cases h; exact ⟨v, rfl, rfl⟩

/-! ### What each command leaves when it fails (R416) -/

/-- A command that ends in error, and was not in error before, is one whose body raised it (R415). -/
theorem raised_of_exec {i : Instr} {t : State} (noErr : s.err = false) (failed : t.err = true)
    (next : exec i s = .next t) : ∃ e u, commandBody i s = .raised e u ∧ t = errorComplete e u := by
  rw [exec_eq_finish] at next
  obtain ⟨u, ended, rfl⟩ | raised := finish_next next
  · have kept : u.err = s.err := congrArg Prod.fst (commandBody_keepsErrRecord i s u ended)
    cases failed.symm.trans (kept.trans noErr)
  · exact raised

end Bodies

/-- Settles O50: a body that raises leaves its error effects, and the bodies of NOP and CLEAR do not raise. -/
theorem errorEffectsOfEachCommand : Obligations.ErrorEffectsOfEachCommand := by
  intro s t noErr failed
  refine ⟨fun next => ?count, fun next => ?build, fun next => ?gencodes, fun next => ?serialize, fun next => ?encode,
    fun next => ?decode, fun next => ?nop, fun next => ?clear⟩ <;>
    obtain ⟨e, u, raised, rfl⟩ := raised_of_exec noErr failed next
  case count =>
    obtain ⟨rfl, -⟩ := countBody_raised raised
    exact ⟨rfl, _, rfl⟩
  case build =>
    obtain ⟨rfl, -⟩ := buildBody_raised raised
    exact ⟨rfl, rfl, rfl, rfl, rfl, _, rfl⟩
  case gencodes =>
    obtain ⟨rfl, -⟩ := gencodesBody_raised raised
    exact ⟨rfl, rfl, _, rfl⟩
  case serialize =>
    obtain ⟨rfl, -⟩ := serializeBody_raised raised
    exact ⟨rfl, rfl, rfl, rfl, _, rfl⟩
  case encode =>
    obtain ⟨v, -, rfl⟩ := encodeFailed_eq_raised raised
    exact ⟨rfl, rfl, rfl, rfl, _, rfl⟩
  case decode =>
    obtain ⟨rfl, -⟩ := decodeBody_raised raised
    exact ⟨rfl, rfl, rfl, rfl, rfl, rfl, rfl, rfl, rfl, ⟨_, rfl⟩, _, rfl⟩
  case nop => cases raised
  case clear => cases raised

end Sys2Proof.Machine
end

section
/-! The errors of ENCODE (44_encoder.md R320, R321; 60_exceptions.md R413): behind COUNT the table is in BUILD's form
and the tree has each character once, so no stage finds an object missing, a character repeated or a character without
a code. -/

namespace Sys2Proof.Machine

/-! ### The characters of a built tree (R262 to R265) -/

/-- The character of a Leaf. -/
def Node.leafSym : Node → Option Word
  | .leaf c _ => some c
  | _ => none

/-- The characters of a tree are those of the Leaves it reaches. -/
theorem HoldsTree.syms_eq {ns : List Node} {i : Nat} {t : Tree} {is : List Nat} (h : HoldsTree ns i t is) :
    t.syms = is.filterMap fun j => ns[j]?.bind Node.leafSym := by
  induction h with
  | leaf here => simp [Tree.syms, here, Node.leafSym]
  | internal here left right ihl ihr => simp [Tree.syms, here, Node.leafSym, ihl, ihr]

theorem syms_perm_of_holdsTree {ns : List Node} {i : Nat} {t : Tree} {is : List Nat} (h : HoldsTree ns i t is)
    (all : is.Perm (List.range ns.length)) : t.syms.Perm (ns.filterMap Node.leafSym) := by
  have nodes : (List.range ns.length).map (fun j => ns[j]?) = ns.map some :=
    List.ext_getElem (by simp) fun j _ _ => by simp
  have leaves : (List.range ns.length).filterMap (fun j => ns[j]?.bind Node.leafSym) = ns.filterMap Node.leafSym :=
    calc (List.range ns.length).filterMap ((fun n => n.bind Node.leafSym) ∘ fun j => ns[j]?)
      _ = (ns.map some).filterMap fun n => n.bind Node.leafSym := by rw [← List.filterMap_map, nodes]
      _ = ns.filterMap Node.leafSym := List.filterMap_map
  rw [h.syms_eq, ← leaves]
  exact all.filterMap _

theorem leafSym_leafNodes (es : List FreqEntry) : (leafNodes es).filterMap Node.leafSym = es.map FreqEntry.sym := by
  rw [leafNodes, List.filterMap_map, ← List.filterMap_eq_map]
  rfl

/-- A merge makes no Leaf (R264). -/
theorem leafSym_mergeLoop (fuel : Nat) (q : List PQEntry) (next : Nat) :
    (mergeLoop fuel q next).1.filterMap Node.leafSym = [] := by
  induction fuel generalizing q next with
  | zero => rfl
  | succ fuel ih =>
    match q with
    | [] => rfl
    | [x] => rw [mergeLoop_single]; rfl
    | x :: y :: q => rw [mergeLoop_succ]; exact ih _ _

/-- The tree built of a table has the characters of the table. -/
theorem syms_perm_of_builtTree {cap : Nat} {tab : List FreqEntry} {t : Tree} (nonempty : tab ≠ [])
    (small : tab.length ≤ 2 ^ 18) (enough : 2 * tab.length - 1 ≤ cap) (built : builtTree cap tab = some t) :
    t.syms.Perm (tab.map FreqEntry.sym) := by
  obtain ⟨length, t', is, holds, all⟩ := buildNodes_oneTree nonempty (by omega : tab.length ≤ 2 ^ 31)
  have reached : is.length = (buildNodes tab).1.length := by simpa using all.length_eq
  have read : builtTree cap tab = some t' := holds.readTree_eq (by omega)
  cases built.symm.trans read
  have leaves := syms_perm_of_holdsTree holds all
  rwa [buildNodes_fst, List.filterMap_append, leafSym_leafNodes, leafSym_mergeLoop, List.append_nil] at leaves

/-! ### The code table of a tree that has each character once (R294) -/

theorem map_fst_pathsFrom (t : Tree) (path : List Bool) : (pathsFrom t path).map Prod.fst = t.syms := by
  induction t generalizing path with
  | leaf c => rfl
  | node l r ihl ihr => rw [pathsFrom, List.map_append, ihl, ihr, Tree.syms]

theorem map_fst_leafCodes (t : Tree) : (leafCodes t).map Prod.fst = t.syms := by
  cases t with
  | leaf c => rfl
  | node l r => exact map_fst_pathsFrom _ _

theorem codeTable_errors_of_nodup {lMax : Nat} {t : Tree} (once : t.syms.Nodup) :
    ErrorsAmong [8] (codeTable lMax t) := by
  intro e failed
  obtain long | twice := codeTable_error_cases failed
  · simp [code_of_tooLong long]
  · cases (repeated_eq_none_iff.mpr ((map_fst_leafCodes t).symm ▸ once)).symm.trans twice

theorem coded_of_mem_syms {lMax : Nat} {t : Tree} {cs : List CodeEntry} (table : IsCodeTable lMax t cs) {x : Word}
    (valid : validCodePoint x = true) (leaf : x ∈ t.syms) : Coded cs x := by
  obtain ⟨bs, word⟩ := exists_wordOf_of_mem_syms leaf
  obtain ⟨e, mem, sym, -⟩ := table.complete bs x word
  exact ⟨valid, e, mem, sym⟩

/-- Of a text of coded characters only OBUF can be too short. -/
theorem serialize_errors_of_coded {cap : Nat} {t : Tree} {codes : List CodeEntry} {text : List Word}
    (coded : ∀ x ∈ text, Coded codes x) : ErrorsAmong [7] (serialize cap t codes text) := by
  obtain full | fits := Nat.lt_or_ge cap (streamBytes (t.bits ++ text.flatMap (codeBitsOf codes)).length)
  · rw [serialize_of_full coded full, obufFull]
    exact errorsAmong_error
  · obtain ⟨bytes, -, stream⟩ := serialize_of_fits coded fits
    rw [stream]
    exact errorsAmong_ok _ _

/-! ### The stages (R320) -/

section Stages
variable {s u v : State} {e : CmdError} {tab : List FreqEntry} {t : Tree}

theorem andThen_eq_raised {g : Stage} {f : State → Stage} (h : g.andThen f = .raised e u) :
    g = .raised e u ∨ ∃ v, g = .ok v ∧ f v = .raised e u := by
  cases g with
  | ok v => exact .inr ⟨v, rfl, h⟩
  | raised e' v => exact .inl h
  | stuck k => cases h

/-- COUNT and BUILD have made the tree of the text's table. -/
structure State.TreeBuilt (s : State) (tab : List FreqEntry) : Prop where
  fits : s.inLen.toNat ≤ s.cfg.inCap
  counted : countText s.cfg.nSym 0 s.text [] = .ok tab
  nonempty : tab ≠ []

/-- BUILD behind COUNT: the empty table is refused, any other is in BUILD's form. -/
theorem countBody_andThen_buildBody_cases (wf : s.cfg.wf) (count : countBody s = .ok v) :
    buildBody v = .raised .emptyInput (buildFailed (clearTree v)) ∨
      ∃ tab, s.TreeBuilt tab ∧ buildBody v = .ok (treeState tab s) := by
  obtain ⟨tab, fits, counted, rfl⟩ := countBody_eq_ok count
  by_cases nonempty : tab = []
  · subst nonempty
    exact .inl (buildFrom_of_zero rfl)
  · have both := countBody_andThen_buildBody wf fits counted nonempty
    rw [count] at both
    exact .inr ⟨tab, ⟨fits, counted, nonempty⟩, both⟩

/-- The tree that GENCODES and SERIALIZE find is the one built, and the table is within the bounds (R8). -/
theorem State.TreeBuilt.built (h : s.TreeBuilt tab) (wf : s.cfg.wf) (tree : (treeState tab s).tree = some t) :
    tab.length ≤ s.cfg.nSym ∧ tab.length ≤ 2 ^ 18 ∧ builtTree s.cfg.nodeCap tab = some t := by
  have few : tab.length ≤ s.cfg.nSym := countText_length_le List.Pairwise.nil (Nat.zero_le _) h.counted
  obtain ⟨⟨-, nSym⟩, -⟩ := wf
  exact ⟨few, few.trans nSym, (tree_treeState h.nonempty (few.trans nSym)).symm.trans tree⟩

/-- The leaves of the tree are the text's characters, each once, and all valid. -/
theorem State.TreeBuilt.syms (h : s.TreeBuilt tab) (wf : s.cfg.wf) (tree : (treeState tab s).tree = some t) :
    t.syms.Nodup ∧ ∀ x ∈ s.text, validCodePoint x = true ∧ x ∈ t.syms := by
  obtain ⟨few, small, built⟩ := h.built wf tree
  have perm := syms_perm_of_builtTree h.nonempty small (by unfold Config.nodeCap; omega) built
  obtain ⟨valid, rfl⟩ := countText_ok (read := []) h.counted
  have distinct := (map_sym_tally_perm s.text).nodup_iff.mpr s.text.nodup_dedup
  exact ⟨perm.nodup_iff.mpr distinct, fun x mem => ⟨valid x mem, perm.mem_iff.mpr (mem_map_sym_tally.mpr mem)⟩⟩

/-- GENCODES behind BUILD finds a tree with each character once. -/
theorem State.TreeBuilt.gencodes_raised (h : s.TreeBuilt tab) (wf : s.cfg.wf)
    (raised : gencodesBody (treeState tab s) = .raised e u) : e.code.toNat = 8 := by
  obtain ⟨down, -⟩ | ⟨-, -, body⟩ | ⟨t, e', -, tree, failed, body⟩ | ⟨t, cs, -, -, -, body⟩ :=
    gencodesFrom_cases (clearCodes (treeState tab s))
  · cases down
  · cases body.symm.trans raised
  · cases body.symm.trans raised
    obtain ⟨once, -⟩ := h.syms wf tree
    exact List.mem_singleton.mp (codeTable_errors_of_nodup once _ failed)
  · cases body.symm.trans raised

theorem text_installCodes (cs : List CodeEntry) (s : State) : (installCodes cs (clearCodes s)).text = s.text := rfl

theorem serializes_installCodes {cs : List CodeEntry} (valid : s.treeValid = true) (tree : s.tree = some t)
    (small : cs.length < 2 ^ 32) (text : s.inLen ≠ 0) (fits : s.inLen.toNat ≤ s.cfg.inCap) :
    (installCodes cs (clearCodes s)).Serializes t cs :=
  ⟨(missingMask_eq_zero _).mpr ⟨valid, rfl⟩, tree, (codeEntries_installCodes small).symm, text, fits⟩

/-- SERIALIZE of a text of coded characters raises CAPACITY alone. -/
theorem code_of_serializeBody_raised {codes : List CodeEntry} (h : s.Serializes t codes)
    (coded : ∀ x ∈ s.text, Coded codes x) (raised : serializeBody s = .raised e u) : e.code.toNat = 7 := by
  cases stream : serialize s.cfg.outCap t codes s.text with
  | ok r => cases (serializeBody_of_ok h stream).symm.trans raised
  | error e' =>
    cases (serializeBody_of_error h stream).symm.trans raised
    exact List.mem_singleton.mp (serialize_errors_of_coded coded _ stream)

/-- SERIALIZE behind GENCODES finds a code for every character of the text. -/
theorem State.TreeBuilt.serialize_raised (h : s.TreeBuilt tab) (wf : s.cfg.wf)
    (generated : gencodesBody (treeState tab s) = .ok v) (raised : serializeBody v = .raised e u) :
    e.code.toNat = 7 := by
  obtain ⟨t, cs, tree, table, rfl⟩ := gencodesBody_eq_ok generated
  obtain ⟨-, small, built⟩ := h.built wf tree
  obtain ⟨-, -, length⟩ := encoded_sizes wf h.counted h.nonempty built table
  obtain ⟨-, max⟩ := lMax_bounds wf
  obtain ⟨-, leaves⟩ := h.syms wf tree
  have serializes : (installCodes cs (clearCodes (treeState tab s))).Serializes t cs :=
    serializes_installCodes rfl tree (by omega) (inLen_ne_zero_of_countText h.counted h.nonempty) h.fits
  refine code_of_serializeBody_raised serializes (fun x mem => ?_) raised
  rw [text_installCodes, treeState_text] at mem
  obtain ⟨valid, leaf⟩ := leaves x mem
  exact coded_of_mem_syms (isCodeTable_of_codeTable max table) valid leaf

/-- ENCODE raises what COUNT raises, EMPTY_INPUT of BUILD, CODE_TOO_LONG of GENCODES, and CAPACITY of SERIALIZE. -/
theorem encodeBody_raised (wf : s.cfg.wf) (h : encodeBody s = .raised e u) : e.code.toNat ∈ [7, 3, 1, 8] := by
  obtain ⟨w, stages, -⟩ := encodeFailed_eq_raised h
  rw [andThen_assoc, andThen_assoc] at stages
  obtain raised | ⟨s1, count, stages⟩ := andThen_eq_raised stages
  · obtain ⟨-, listed⟩ := countBody_raised raised
    exact (by simp : [7, 3] ⊆ [7, 3, 1, 8]) listed
  obtain body | ⟨tab, built, body⟩ := countBody_andThen_buildBody_cases wf count
  · rw [body] at stages
    cases stages
    simp [CmdError.code]
  rw [body, andThen_ok] at stages
  obtain raised | ⟨s3, generated, raised⟩ := andThen_eq_raised stages
  · simp [built.gencodes_raised wf raised]
  · simp [built.serialize_raised wf generated raised]

end Stages

/-- Settles O51: a command that ends in error raised it in its body. -/
theorem commandsRaiseOnlyTheirCodes : Obligations.CommandsRaiseOnlyTheirCodes := by
  intro s t wf noErr failed
  refine ⟨fun next => ?count, fun next => ?build, fun next => ?gencodes, fun next => ?serialize, fun next => ?encode,
    fun next => ?decode⟩ <;>
    obtain ⟨e, u, raised, rfl⟩ := raised_of_exec noErr failed next
  case count => exact (countBody_raised raised).2
  case build => exact (buildBody_raised raised).2
  case gencodes => exact (gencodesBody_raised raised).2
  case serialize => exact (serializeBody_raised raised).2
  case encode => exact encodeBody_raised wf raised
  case decode => exact (decodeBody_raised raised).2

end Sys2Proof.Machine
end

section
/-! Reset leaves nothing of a running command, and its state is sound (70_reset_and_hazards.md R450 to R452). -/

namespace Sys2Proof.Machine

/-- Which of the five draws of a reset gives a window its free values (log 2). -/
def Win.resetDraw : Win → Nat
  | .ibuf => 0
  | .obuf => 1
  | .freq => 2
  | .node => 3
  | .code => 4

theorem win_resetStep (s : State) (w : Win) :
    (resetStep s).win w = ⟨.unspecified (s.draws + w.resetDraw), []⟩ := by cases w <;> rfl

/-- Settles O24: the state after a reset reads three fields of the state before, and draws each window afresh. -/
theorem resetAbandonsARunningCommand : Obligations.ResetAbandonsARunningCommand := by
  refine ⟨fun s s' cfg pending draws => ?_, fun s => ⟨rfl, rfl, rfl, rfl, fun w => ?_⟩⟩
  · rw [resetStep, resetStep, cfg, pending, draws]
  · exact ⟨_, Nat.le_add_right .., win_resetStep s w⟩

theorem resetAt_sound {c : Config} (wf : c.wf) (q : List HostEvent) (k : Nat) : (State.resetAt c q k).Sound :=
  resetStep_sound (s := { State.reset with cfg := c, pending := q, draws := k }) wf

/-- Settles O25. -/
theorem resetStateIsSound : Obligations.ResetStateIsSound :=
  ⟨fun _ wf => ⟨resetStep_sound wf, rfl⟩, resetAt_sound (by decide) [] 0⟩

end Sys2Proof.Machine
end

section
/-! DECODE reads the stream bits before the end of the stream, and nothing else of IBUF (45_decoder.md R350 to R361;
10_state.md R50; 70_reset_and_hazards.md R475). -/

namespace Sys2Proof.Machine

/-- The first `k` words of a list written to a buffer are read back. -/
theorem ibufWords_writeWords (m : Memory) {ws : List Word} {k : Nat} (inside : k ≤ ws.length) :
    ibufWords (m.writeWords 0 ws) k = ws.take k := by
  refine List.ext_getElem (by simp [ibufWords, inside]) fun i hi hi' => ?_
  have here : i < ws.length := (List.length_take ▸ hi').trans_le (Nat.min_le_right ..)
  simp [ibufWords, ibufWord_writeWords m here]

/-- The words that a command has written to OBUF (10_state.md R51). -/
def State.output (s : State) : List Word := ibufWords s.obuf s.outLen.toNat

theorem obuf_eq_of_output_eq {s s' : State} (outLen : s.outLen = s'.outLen) (output : s.output = s'.output) :
    ∀ k < s.outLen.toNat, ibufWord s.obuf k = ibufWord s'.obuf k := by
  rw [State.output, State.output, ibufWords, ibufWords, ← outLen] at output
  exact fun k hk => List.map_inj_left.mp output k (List.mem_range.mpr hk)

/-! ### The three phases over two streams of the same bits -/

section Bits
variable {nb : Nat} {bit bit' : Nat → Bool} (same : ∀ p < nb, bit p = bit' p)
include same

theorem readBits_congr (k pos : Nat) : readBits nb bit k pos = readBits nb bit' k pos := by
  unfold readBits
  split
  case isTrue => rfl
  case isFalse room =>
    refine congrArg (fun v => Except.ok (v, pos + k)) (List.foldl_ext _ _ _ fun v j hj => ?_)
    rw [same _ (by have := List.mem_range.mp hj; omega)]

theorem readSym_congr (pos : Nat) : readSym nb bit pos = readSym nb bit' pos := by
  rw [readSym, readSym, readBits_congr same]

theorem readNode_congr (cap : Nat) (c : DecCursor) : readNode nb bit cap c = readNode nb bit' cap c := by
  simp only [readNode, readBits_congr same, readSym_congr same]

theorem fillSlots_congr (cap fuel : Nat) (c : DecCursor) (stack : List Nat) :
    fillSlots nb bit cap fuel c stack = fillSlots nb bit' cap fuel c stack := by
  induction fuel generalizing c stack with
  | zero => cases stack <;> simp only [fillSlots]
  | succ fuel ih => cases stack <;> simp only [fillSlots, readNode_congr same, ih]

theorem readTreeRegion_congr (cap : Nat) : readTreeRegion nb bit cap = readTreeRegion nb bit' cap := by
  simp only [readTreeRegion, readNode_congr same, fillSlots_congr same]

theorem decodePayload_congr {stop : Nat} (inside : stop ≤ nb) (ns : List Node) (cap t : Nat) :
    decodePayload bit ns cap t stop = decodePayload bit' ns cap t stop := by
  have payload : (List.range (stop - t)).map (fun k => bit (t + k)) =
      (List.range (stop - t)).map (fun k => bit' (t + k)) :=
    List.map_congr_left fun k hk => same _ (by have := List.mem_range.mp hk; omega)
  simp only [decodePayload, payload]

end Bits

/-- The low bits of the last byte matter only where there is a byte. -/
theorem stopPosition_congr {nb low3 low3' : Nat} (same : 0 < nb → low3 = low3') (t : Nat) :
    stopPosition nb t low3 = stopPosition nb t low3' := by
  by_cases empty : nb < t + 3
  · rw [stopPosition_of_short empty, stopPosition_of_short empty]
  · rw [same (by omega)]

/-- The stop position lies within a stream of whole bytes (R358). -/
theorem stopPosition_le {n t low3 stop : Nat} (low : low3 < 8) (h : stopPosition (8 * n) t low3 = .ok stop) :
    stop ≤ 8 * n := by
  obtain ⟨trailer, -, rfl⟩ := stopPosition_eq_ok_iff.mp h
  omega

theorem decodeStream_congr {n low3 low3' : Nat} {bit bit' : Nat → Bool} (same : ∀ p < 8 * n, bit p = bit' p)
    (low : low3 < 8) (sameLow : 0 < 8 * n → low3 = low3') (cfg : Config) :
    decodeStream cfg (8 * n) bit low3 = decodeStream cfg (8 * n) bit' low3' := by
  rw [decodeStream, decodeStream, readTreeRegion_congr same]
  cases readTreeRegion (8 * n) bit' cfg.nodeCap with
  | error e => rfl
  | ok c =>
    simp only [← stopPosition_congr sameLow]
    cases phase2 : stopPosition (8 * n) c.pos low3 with
    | error e => rfl
    | ok stop => simp only [decodePayload_congr same (stopPosition_le low phase2)]

/-! ### The command -/

/-- A stream bit is a bit of [7:0] of its element (R50, R100). -/
theorem streamBit_eq_testBit (m : Memory) (p : Nat) :
    streamBit m p = ((ibufWord m (p / 8)).toNat % 256).testBit (7 - p % 8) := by
  rw [streamBit, BitVec.getLsbD, show 256 = 2 ^ 8 from rfl, Nat.testBit_mod_two_pow,
    decide_eq_true (by omega), Bool.true_and]

/-- What DECODE computes: the length check and the three phases (R350). -/
def State.decoded (s : State) : Except CmdError Decoded :=
  if s.cfg.inCap < s.inLen.toNat then .error (.capacity 1 s.inLen.toNat s.cfg.inCap) else s.decoding

theorem decoding_congr {s s' : State} (cfg : s.cfg = s'.cfg) (inLen : s.inLen = s'.inLen)
    (bytes : ∀ k < s.inLen.toNat, (ibufWord s.ibuf k).toNat % 256 = (ibufWord s'.ibuf k).toNat % 256) :
    s.decoding = s'.decoding := by
  rw [State.decoding, State.decoding, ← cfg, ← inLen]
  refine decodeStream_congr (fun p hp => ?bit) (Nat.mod_lt _ (by decide)) (fun nonempty => ?low3) s.cfg
  case bit => rw [streamBit_eq_testBit, streamBit_eq_testBit, bytes _ (by omega)]
  case low3 =>
    have last := bytes (s.inLen.toNat - 1) (by omega)
    omega

theorem decoded_congr {s s' : State} (cfg : s.cfg = s'.cfg) (inLen : s.inLen = s'.inLen)
    (bytes : ∀ k < s.inLen.toNat, (ibufWord s.ibuf k).toNat % 256 = (ibufWord s'.ibuf k).toNat % 256) :
    s.decoded = s'.decoded := by
  rw [State.decoded, State.decoded, ← decoding_congr cfg inLen bytes, cfg, inLen]

/-- DECODE completes as its computation ends. -/
theorem exec_decode_cases {s u : State} (next : exec .decode s = .next u) :
    (∃ e, s.decoded = .error e ∧ u = errorComplete e (decodeFailed (clearTree s))) ∨
    (∃ d, s.decoded = .ok d ∧ u = complete (installDecoded d (clearTree s))) := by
  rw [exec_decode] at next
  unfold State.decoded
  obtain ⟨long, body⟩ | ⟨e, fits, failed, body⟩ | ⟨d, fits, decoded, body⟩ := decodeFrom_cases (clearTree s) <;>
    (rw [body] at next; cases next)
  · exact .inl ⟨_, if_pos long, rfl⟩
  · exact .inl ⟨e, (if_neg (Nat.not_lt.mpr fits)).trans failed, rfl⟩
  · exact .inr ⟨d, (if_neg (Nat.not_lt.mpr fits)).trans decoded, rfl⟩

theorem output_installDecoded (d : Decoded) (s : State) :
    (installDecoded d s).output = d.text.take (d.text.length % 2 ^ 32) :=
  ibufWords_writeWords s.obuf (Nat.mod_le ..)

/-- Settles O46: what DECODE computes is the same over both states, and it leaves nothing else in its results. -/
theorem decodeDependsOnItsStreamOnly : Obligations.DecodeDependsOnItsStreamOnly := by
  intro s s' u u' cfg inLen bytes next next'
  have same := decoded_congr cfg inLen bytes
  obtain ⟨e, failed, rfl⟩ | ⟨d, decoded, rfl⟩ := exec_decode_cases next <;>
    obtain ⟨e', failed', rfl⟩ | ⟨d', decoded', rfl⟩ := exec_decode_cases next'
  · cases failed.symm.trans (same.trans failed')
    exact ⟨rfl, rfl, rfl, rfl, rfl, rfl, rfl, rfl, rfl, fun valid => Bool.noConfusion valid,
      fun _ => ⟨rfl, rfl, rfl, rfl⟩⟩
  · cases failed.symm.trans (same.trans decoded')
  · cases decoded.symm.trans (same.trans failed')
  · cases decoded.symm.trans (same.trans decoded')
    exact ⟨rfl, rfl, rfl, rfl, rfl, rfl, rfl, rfl, rfl,
      fun _ => ⟨rfl, obuf_eq_of_output_eq rfl ((output_installDecoded d _).trans (output_installDecoded d _).symm)⟩,
      fun invalid => Bool.noConfusion invalid⟩

end Sys2Proof.Machine
end

section
/-! ENCODE's results depend on the parameters and the text only: each body's results depend on those of the body before
(44_encoder.md R320; 70_reset_and_hazards.md R475). -/

namespace Sys2Proof.Machine

/-! ### Two ends of one body -/

/-- The two bodies end alike: in states that `R` relates, or with one error and equal FREQ_N, or neither ends. -/
inductive Stage.Agree (R : State → State → Prop) : Stage → Stage → Prop
  | ok {s s' : State} (related : R s s') : Agree R (.ok s) (.ok s')
  | raised (e : CmdError) {s s' : State} (freqN : s.freqN = s'.freqN) : Agree R (.raised e s) (.raised e s')
  | stuck (f : Fault) : Agree R (.stuck f) (.stuck f)

section Agree
variable {R R' : State → State → Prop} {g g' : Stage}

theorem Stage.Agree.andThen {f : State → Stage} (h : g.Agree R g') (hf : ∀ s s', R s s' → (f s).Agree R' (f s')) :
    (g.andThen f).Agree R' (g'.andThen f) := by
  cases h with
  | ok related => exact hf _ _ related
  | raised e freqN => exact .raised e freqN
  | stuck k => exact .stuck k

theorem Stage.Agree.encodeFailed (h : g.Agree R g') : g.encodeFailed.Agree R g'.encodeFailed := by
  cases h with
  | ok related => exact .ok related
  | raised e freqN => exact .raised e freqN
  | stuck k => exact .stuck k

theorem agree_ite {c : Prop} [Decidable c] {a a' : Stage} (ha : a.Agree R a') (h : g.Agree R g') :
    (if c then a else g).Agree R (if c then a' else g') := by
  split
  · exact ha
  · exact h

end Agree

/-! ### The four bodies (R320) -/

/-- Equal parameters and text. -/
structure SameText (s s' : State) : Prop where
  cfg : s.cfg = s'.cfg
  inLen : s.inLen = s'.inLen
  text : s.text = s'.text

/-- And equal results of COUNT. -/
structure SameFreq (s s' : State) : Prop extends SameText s s' where
  freqN : s.freqN = s'.freqN
  freq : s.freq = s'.freq

/-- And equal results of BUILD. -/
structure SameTree (s s' : State) : Prop extends SameFreq s s' where
  treeValid : s.treeValid = s'.treeValid
  nodeN : s.nodeN = s'.nodeN
  root : s.root = s'.root
  node : s.node = s'.node

/-- And equal results of GENCODES. -/
structure SameCodes (s s' : State) : Prop extends SameTree s s' where
  codesValid : s.codesValid = s'.codesValid
  codeN : s.codeN = s'.codeN
  code : s.code = s'.code

/-- And equal results of SERIALIZE. -/
structure SameStream (s s' : State) : Prop extends SameCodes s s' where
  outLen : s.outLen = s'.outLen
  treeBits : s.treeBits = s'.treeBits
  payloadBits : s.payloadBits = s'.payloadBits
  stopPos : s.stopPos = s'.stopPos
  output : s.output = s'.output

section Bodies
variable {s s' : State}

theorem countBody_agree (h : SameText s s') : (countBody s).Agree SameFreq (countBody s') := by
  have words : ibufWords s.ibuf s.inLen.toNat = ibufWords s'.ibuf s'.inLen.toNat := h.text
  rw [countBody, countBody, words, h.cfg, h.inLen]
  refine agree_ite (.raised _ rfl) ?_
  cases countText s'.cfg.nSym 0 (ibufWords s'.ibuf s'.inLen.toNat) [] with
  | error e => exact .raised e rfl
  | ok tab => exact .ok { h with freqN := rfl, freq := rfl }

theorem buildBody_agree (h : SameFreq s s') : (buildBody s).Agree SameTree (buildBody s') := by
  simp only [buildBody, buildFrom, clearTree_cfg, clearTree_freqN, clearTree_freq, h.cfg, h.freqN, h.freq]
  refine agree_ite (.raised _ h.freqN) (agree_ite (.raised _ h.freqN) ?_)
  cases checkFreq 0 none (freqEntries s'.freq s'.freqN.toNat) with
  | error e => exact .raised _ h.freqN
  | ok _ => exact .ok { h with treeValid := rfl, nodeN := rfl, root := rfl, node := rfl }

theorem SameTree.tree_eq (h : SameTree s s') : s.tree = s'.tree := by
  rw [State.tree, State.tree, h.node, h.cfg, h.root]

theorem gencodesBody_agree (h : SameTree s s') : (gencodesBody s).Agree SameCodes (gencodesBody s') := by
  have tree : (clearCodes s).tree = (clearCodes s').tree := h.tree_eq
  simp only [gencodesBody, gencodesFrom, clearCodes_treeValid, clearCodes_cfg, tree, h.treeValid, h.cfg]
  refine agree_ite (.raised _ h.freqN) ?_
  cases (clearCodes s').tree with
  | none => exact .stuck _
  | some t =>
    dsimp only
    cases codeTable s'.cfg.lMax t with
    | error e => exact .raised _ h.freqN
    | ok cs => exact .ok { h with codesValid := rfl, codeN := rfl, code := rfl }

theorem output_installStream (r : Stream) (s : State) :
    (installStream r s).output = (r.bytes.map fun b => b.setWidth 32).take (r.bytes.length % 2 ^ 32) :=
  ibufWords_writeWords s.obuf ((Nat.mod_le ..).trans_eq (List.length_map _).symm)

theorem serializeBody_agree (h : SameCodes s s') : (serializeBody s).Agree SameStream (serializeBody s') := by
  have words : ibufWords s.ibuf s.inLen.toNat = ibufWords s'.ibuf s'.inLen.toNat := h.text
  have mask : missingMask s = missingMask s' := by rw [missingMask, missingMask, h.treeValid, h.codesValid]
  rw [serializeBody, serializeBody, words, mask, h.tree_eq, h.cfg, h.inLen, h.code, h.codeN]
  refine agree_ite (.raised _ h.freqN) (agree_ite (.raised _ h.freqN) (agree_ite (.raised _ h.freqN) ?_))
  cases s'.tree with
  | none => exact .stuck _
  | some t =>
    dsimp only
    cases serialize s'.cfg.outCap t (codeEntries s'.code s'.codeN.toNat) (ibufWords s'.ibuf s'.inLen.toNat) with
    | error e => exact .raised _ h.freqN
    | ok r =>
      exact .ok { h with
        outLen := rfl, treeBits := rfl, payloadBits := rfl, stopPos := rfl,
        output := (output_installStream r s).trans (output_installStream r s').symm }

theorem encodeBody_agree (h : SameText s s') : (encodeBody s).Agree SameStream (encodeBody s') :=
  ((((countBody_agree h).andThen fun _ _ => buildBody_agree).andThen fun _ _ => gencodesBody_agree).andThen
    fun _ _ => serializeBody_agree).encodeFailed

end Bodies

/-- ENCODE completes as its body ends: without an error where there was none, or with the body's and no stream. -/
theorem exec_encode_cases {s u : State} (noErr : s.err = false) (next : exec .encode s = .next u) :
    (∃ v, encodeBody s = .ok v ∧ v.err = false ∧ u = complete v) ∨
    (∃ e v, encodeBody s = .raised e (outputFailed v) ∧ u = errorComplete e (outputFailed v)) := by
  obtain ⟨v, ended, rfl⟩ | ⟨e, w, raised, rfl⟩ := finish_next next
  · exact .inl ⟨v, ended, err_complete_of_keepsErrRecord (ended ▸ encodeBody_keepsErrRecord s) noErr, rfl⟩
  · obtain ⟨v, -, rfl⟩ := encodeFailed_eq_raised raised
    exact .inr ⟨e, v, raised, rfl⟩

/-- Settles O47: the two bodies end alike, and ENCODE completes as its body ends. -/
theorem encodeDependsOnItsTextOnly : Obligations.EncodeDependsOnItsTextOnly := by
  intro s s' u u' cfg inLen text noErr noErr' next next'
  have agree := encodeBody_agree ⟨cfg, inLen, text⟩
  obtain ⟨v, ended, err, rfl⟩ | ⟨e, v, raised, rfl⟩ := exec_encode_cases noErr next <;>
    obtain ⟨v', ended', err', rfl⟩ | ⟨e', v', raised', rfl⟩ := exec_encode_cases noErr' next'
  · rw [ended, ended'] at agree
    obtain ⟨same⟩ := agree
    exact ⟨err.trans err'.symm, same.outLen, same.treeBits, same.payloadBits, same.stopPos, same.freqN,
      fun _ => ⟨same.freq, same.node, same.nodeN, same.root, same.code, same.codeN,
        obuf_eq_of_output_eq same.outLen same.output⟩,
      fun failed => Bool.noConfusion (err.symm.trans failed)⟩
  · rw [ended, raised'] at agree
    cases agree
  · rw [raised, ended'] at agree
    cases agree
  · rw [raised, raised'] at agree
    cases agree with
    | raised _ freqN =>
      exact ⟨rfl, rfl, rfl, rfl, rfl, freqN, fun ok => Bool.noConfusion ok, fun _ => ⟨rfl, rfl, rfl, rfl⟩⟩

end Sys2Proof.Machine
end
